-- ==== Sys2Proof/Word.lean ====
section
/-! DEFINITION. The words the part's fields are made of, and the fixed-size bank of like records
(one record for each channel, interlock, line state or slot). -/

namespace Sys2Proof

/-- One byte of a frame (R179). -/
abbrev Byte := BitVec 8
/-- A two-byte field or a channel mask, bit n for channel n (R193). -/
abbrev Half := BitVec 16
/-- A four-byte field: BNUM, an accumulator value, a threshold (R193). -/
abbrev Word := BitVec 32
/-- A channel number, 0–15 (00_scope.md 2.5). -/
abbrev ChanId := Fin 16
/-- An interlock number, IL0–IL3. -/
abbrev IlId := Fin 4
/-- A line state, L0–L9. -/
abbrev LineId := Fin 10

/-- `n` records of one type, numbered from 0. -/
structure Bank (α : Type) (n : Nat) where
  data : List α
  size : data.length = n
deriving DecidableEq, Repr

/-- The bank whose record `i` is `f i`. -/
def Bank.ofFn {α : Type} {n : Nat} (f : Fin n → α) : Bank α n := ⟨List.ofFn f, List.length_ofFn⟩

/-- Record `i` of the bank. -/
def Bank.get {α : Type} {n : Nat} (b : Bank α n) (i : Fin n) : α := b.data.get (i.cast b.size.symm)

/-- The bank with record `i` replaced. -/
def Bank.set {α : Type} {n : Nat} (b : Bank α n) (i : Fin n) (v : α) : Bank α n :=
  Bank.ofFn fun j => if j = i then v else b.get j

/-- The bank with every record replaced by a function of its number and its old value. -/
def Bank.mapId {α β : Type} {n : Nat} (b : Bank α n) (f : Fin n → α → β) : Bank β n :=
  Bank.ofFn fun i => f i (b.get i)

/-- The bank of `n` equal records. -/
def Bank.fill {α : Type} (n : Nat) (v : α) : Bank α n := Bank.ofFn fun _ => v

/-- The sixteen channels in ascending order. -/
def allChans : List ChanId := List.finRange 16

/-- The four interlocks in ascending order. -/
def allIls : List IlId := List.finRange 4

/-- The channel mask that holds exactly the channels where `p` is true (R193: bit n stands for channel n). -/
def chanMask (p : ChanId → Bool) : Half :=
  (BitVec.ofBoolListLE (allChans.map p)).setWidth 16

end Sys2Proof
end

