-- ==== Sys2Proof/Syntax.lean ====
section
/-! DEFINITION. The commands of the part: one constructor for each row of spec/opcode_table.json. -/

namespace Sys2Proof

/-- The electrical level of a pin, or a filtered level (R91). -/
inductive Level where
  | low
  | high
deriving DecidableEq, Repr

/-- One of a channel's two outputs (00_scope.md 1.2). -/
inductive OutPin where
  | a
  | b
deriving DecidableEq, Repr

/-- What makes a framing error other than a gap (R180). -/
inductive FramingCause where
  /-- a LEN byte above 60 -/
  | lenAbove (b : Byte)
  /-- a byte received with a bad stop bit -/
  | badStop
deriving DecidableEq, Repr

/-- The commands. A request carries its TAG and its body bytes (R194, R195); the four CLEAR rows carry
the bytes that follow the sub-function byte. -/
inductive Instr where
  | powerOn
  | resetPin
  | resetPinRelease
  | endOfStarting (rate1 rate0 : Level)
  | sample (s : Half) (il : BitVec 4) (home : Level) (c : BitVec 6)
  | frameEnd
  | checkStepEnd
  | compareMatch (ch : ChanId)
  | deadTimeExpiry (ch : ChanId) (out : OutPin)
  | wantedTimeExpiry (ch : ChanId) (out : OutPin)
  | framingError (cause : FramingCause)
  | interByteGap
  | frameComplete (b : Byte)
  | frameSent
  | badKind (kind tag : Byte) (body : List Byte)
  | identify (tag : Byte) (body : List Byte)
  | status (tag : Byte) (body : List Byte)
  | restart (tag : Byte) (body : List Byte)
  | layout (tag : Byte) (body : List Byte)
  | layoutRead (tag : Byte) (body : List Byte)
  | timebase (tag : Byte) (body : List Byte)
  | start (tag : Byte) (body : List Byte)
  | stop (tag : Byte) (body : List Byte)
  | configWrite (tag : Byte) (body : List Byte)
  | configRead (tag : Byte) (body : List Byte)
  | lock (tag : Byte) (body : List Byte)
  | notices (tag : Byte) (body : List Byte)
  | post (tag : Byte) (body : List Byte)
  | withdraw (tag : Byte) (body : List Byte)
  | queryChannel (tag : Byte) (body : List Byte)
  | queryQueue (tag : Byte) (body : List Byte)
  | forceBoundary (tag : Byte) (body : List Byte)
  | clearTrips (tag : Byte) (mask : List Byte)
  | clearAccum (tag : Byte) (mask : List Byte)
  | clearOvercapture (tag : Byte) (mask : List Byte)
  | clearCounters (tag : Byte) (mask : List Byte)
  | queryCapture (tag : Byte) (body : List Byte)
  | tableWrite (tag : Byte) (body : List Byte)
  | tableRead (tag : Byte) (body : List Byte)
  | seqArm (tag : Byte) (body : List Byte)
  | seqDisarm (tag : Byte) (body : List Byte)
  | seqHome (tag : Byte) (body : List Byte)
  | trigger (tag : Byte) (body : List Byte)
  | check (tag : Byte) (body : List Byte)
  | stopCheck (tag : Byte) (body : List Byte)
  | checkResult (tag : Byte) (body : List Byte)
  | byteReceived (b : Byte)
  | tick
deriving DecidableEq, Repr

end Sys2Proof
end

