-- ==== Sys2Proof/Decode.lean ====
section
/-! DEFINITION. The commands that a word spells by the bits of spec/opcode_table.json: the table gives
bits for no row, so no word spells a command. Request frames are decoded from their bytes in
Machine/Link.lean. -/

namespace Sys2Proof

/-- The command that an `nbits`-bit word `w` spells by the table's bits: none, since no row has bits. -/
def decodeTableWord (_nbits _w : Nat) : Option Instr := none

end Sys2Proof
end

