-- ==== Sys2Proof/Config.lean ====
section
/-! DEFINITION. What the part fixes: its capacities, identity codes and limits; and the one free value,
from which every choice that the manual leaves open is taken. -/

namespace Sys2Proof

/-- FREE VALUE. Where the manual says that either of several things may be taken first (R101, R113,
R188, R191), the k-th such choice of a run is `Config.freePick k`, of which nothing is known. -/
opaque Config.freePick : Nat → Nat

/-- The Posting Queue holds up to 32 entries (R19). -/
def Config.queueCapacity : Nat := 32
/-- The request buffer holds up to 4 waiting requests (R181). -/
def Config.waitingCapacity : Nat := 4
/-- The check's log holds at most 6 records (R162). -/
def Config.logCapacity : Nat := 6
/-- A QUERY_QUEUE reply returns up to 6 entries (R36). -/
def Config.queryEntries : Nat := 6
/-- A frame's body is at most 60 bytes long (R179). -/
def Config.maxBody : Nat := 60
/-- Off-time and wanted-time counters stop at 1000 (R79, R80). -/
def Config.maxGap : Nat := 1000
/-- Full drive is level 10000 (00_scope.md 2.3). -/
def Config.fullLevel : Int := 10000
/-- The sample clock samples once every 16 drive clocks (R91). -/
def Config.samplePeriod : Nat := 16
/-- STARTING ends at the 32nd sample (R169). -/
def Config.startSamples : Nat := 32
/-- The SYNC byte (R179). -/
def Config.sync : Byte := 0xC3#8
/-- The vendor code of IDENTIFY (R185). -/
def Config.vendor : Half := 0x4ED5#16
/-- The part code of IDENTIFY (R185). -/
def Config.part : Half := 0x716D#16
/-- The revision code of IDENTIFY (R185). -/
def Config.revision : Byte := 0x01#8
/-- The number of transition slots: four for each of ten states, and six any-state slots (R185, R133, R134). -/
def Config.transitionSlots : Nat := 46
/-- The default notice mask TRIP, FLOW, ACCUM, SEQ_DROP, CHECK_DONE, bit n for the kind 0x40+n (R190, R195). -/
def Config.defaultMask : Half := 0x00E6#16
/-- The bits of a NOTICES mask that name a maskable kind (R190, R195). -/
def Config.maskableKinds : Half := 0x01FE#16

end Sys2Proof
end

