-- ==== Sys2Proof/Machine/State.lean ====
section
/-! DEFINITION. Everything the part holds, unit by unit (00_scope.md 1.3), its reset values, and the
reasons a step can stop. -/

namespace Sys2Proof.Machine

/-! ### Timebase (chapter 1) -/

/-- Counting scheme (R2, R3). -/
inductive Align where
  | edge
  | centred
deriving DecidableEq, Repr

/-- Direction of the frame counter (R3). -/
inductive CountDir where
  | up
  | down
deriving DecidableEq, Repr

/-- Whether the counters advance (R1). -/
inductive RunState where
  | stopped
  | running
deriving DecidableEq, Repr

/-- The four timebase settings (R8). -/
structure TbSettings where
  prescale : Nat
  period : Nat
  rep : Nat
  align : Align
deriving DecidableEq, Repr

/-- The Timebase (chapter 1's table). `rep` is the repetition counter. `frameEndDue` is the model's own:
the last tick ended a frame and that frame end has not been taken yet (R4, R13, R15; log 3). -/
structure Timebase where
  active : TbSettings
  staged : TbSettings
  divider : Nat
  counter : Nat
  dir : CountDir
  rep : Nat
  bnum : Word
  run : RunState
  frameEndDue : Bool
deriving DecidableEq, Repr

/-! ### Posting Queue (chapter 2) -/

/-- Commanded drive (R54). -/
inductive Drive where
  | off
  | on
  | brake
deriving DecidableEq, Repr

/-- The four kinds of entry (R18). -/
inductive Kind where
  | level
  | ramp
  | drive
  | clamp
deriving DecidableEq, Repr

/-- An entry's kind with its value and extra (R18): the level; the target and step; the drive; clamp low
and clamp high. -/
inductive Setpoint where
  | level (v : Int)
  | ramp (target : Int) (step : Nat)
  | drive (d : Drive)
  | clamp (lo hi : Int)
deriving DecidableEq, Repr

/-- Who created or last overwrote an entry (R18). -/
inductive Origin where
  | host
  | sequence
deriving DecidableEq, Repr

/-- One pending setpoint (R18). -/
structure Entry where
  channel : ChanId
  setpoint : Setpoint
  remaining : Nat
  origin : Origin
deriving DecidableEq, Repr

/-- The Posting Queue (chapter 2's table): its entries in arrival order (R19), HOLD and the thresholds. -/
structure PostingQueue where
  entries : List Entry
  hold : Bool
  holdAt : Nat
  resumeAt : Nat
deriving DecidableEq, Repr

/-! ### Drive channels (chapter 3) -/

/-- Channel mode (R45). -/
inductive ChanMode where
  | unused
  | single
  | complement
  | directional
deriving DecidableEq, Repr

/-- Sense role (R45). -/
inductive SenseRole where
  | none
  | capture
  | endStop
deriving DecidableEq, Repr

/-- Polarity of an output or of an interlock (R47, R104). -/
inductive Polarity where
  | activeHigh
  | activeLow
deriving DecidableEq, Repr

/-- Safe pattern of a tripped channel (R47, R84). -/
inductive SafePattern where
  | inactive
  | float
  | brake
deriving DecidableEq, Repr

/-- Which edges are selected (R47, R93). -/
inductive SenseEdge where
  | rising
  | falling
  | both
deriving DecidableEq, Repr

/-- End-stop action (R47). -/
inductive EndStop where
  | off
  | brake
deriving DecidableEq, Repr

/-- Accumulator mode (R47). -/
inductive AccMode where
  | wrap
  | saturate
  | magnitude
deriving DecidableEq, Repr

/-- A channel's configuration (R47). -/
structure ChanCfg where
  polA : Polarity
  polB : Polarity
  safe : SafePattern
  edge : SenseEdge
  filter : Nat
  endStop : EndStop
  accMode : AccMode
  threshold : Word
  defLo : Int
  defHi : Int
  expIdle : Level
  expA : Level
  expB : Level
deriving DecidableEq, Repr

/-- A ramp: target level and step (R54). -/
structure Ramp where
  target : Int
  step : Nat
deriving DecidableEq, Repr

/-- A channel's active set (R54). -/
structure ActiveSet where
  drive : Drive
  level : Int
  lo : Int
  hi : Int
  ramp : Option Ramp
deriving DecidableEq, Repr

/-- A drive channel (chapter 3's table): layout, configurations, active set and clamped flag. The drive
state is derived (R64, R65). -/
structure Channel where
  mode : ChanMode
  deadTime : Nat
  member : BitVec 4
  role : SenseRole
  cfg : ChanCfg
  pendCfg : Option ChanCfg
  act : ActiveSet
  clamped : Bool
deriving DecidableEq, Repr

/-- The eight drive states (R64, R65). -/
inductive DriveState where
  | unused
  | idle
  | driving
  | ramping
  | braked
  | blocked
  | tripped
  | checking
deriving DecidableEq, Repr

/-! ### Output Stage (chapter 4) -/

/-- Which output carries a DIRECTIONAL channel's pulses (R74). -/
inductive Side where
  | a
  | b
  | none
deriving DecidableEq, Repr

/-- What a pin is doing (R79). -/
inductive PinDrive where
  | active
  | inactive
  | released
deriving DecidableEq, Repr

/-- What the Output Stage of one channel shows, but for its compare value (chapter 4's table). -/
structure Shown where
  side : Side
  ref : Bool
  wantA : Bool
  wantB : Bool
  wtA : Nat
  wtB : Nat
  offA : Nat
  offB : Nat
  pinA : PinDrive
  pinB : PinDrive
deriving DecidableEq, Repr

/-- The Output Stage of one channel (chapter 4's table). `prior` is the model's own: what the channel showed before
the first boundary taken since the last drive clock; none where no boundary has been (R13, R77; log 33). -/
structure Out where
  compare : Nat
  side : Side
  ref : Bool
  wantA : Bool
  wantB : Bool
  wtA : Nat
  wtB : Nat
  offA : Nat
  offB : Nat
  pinA : PinDrive
  pinB : PinDrive
  prior : Option Shown
deriving DecidableEq, Repr

/-! ### Sense Unit (chapter 5) -/

/-- Direction of an edge (R93). -/
inductive EdgeDir where
  | rising
  | falling
deriving DecidableEq, Repr

/-- A capture record (R95). -/
structure Capture where
  bnum : Word
  frameIndex : Nat
  counter : Nat
  dir : CountDir
  edge : EdgeDir
deriving DecidableEq, Repr

/-- The Sense Unit of one channel (chapter 5's table). -/
structure Sense where
  filtered : Level
  run : Nat
  capture : Option Capture
  captured : Bool
  overcaptured : Bool
deriving DecidableEq, Repr

/-- The sample clock (R91) and the latest sample of the condition inputs C0–C5 (R135). -/
structure Sampler where
  phase : Nat
  cond : BitVec 6
deriving DecidableEq, Repr

/-! ### Interlock Unit (chapter 6) -/

/-- Rearm mode (R104). -/
inductive Rearm where
  | auto
  | manual
deriving DecidableEq, Repr

/-- One interlock (chapter 6's table). Its active state is derived from level and polarity (R105). -/
structure Interlock where
  polarity : Polarity
  filter : Nat
  rearm : Rearm
  filtered : Level
  run : Nat
deriving DecidableEq, Repr

/-- The HOME input (R104, R105). -/
structure HomeInput where
  filter : Nat
  filtered : Level
  run : Nat
deriving DecidableEq, Repr

/-- A channel's trip latch and cause set (R108). -/
structure Trip where
  latch : Bool
  cause : BitVec 4
deriving DecidableEq, Repr

/-! ### Accumulator Unit (chapter 7) -/

/-- A channel's accumulator (chapter 7's table). `count` is the overflow count in WRAP and the carry count
in MAGNITUDE. -/
structure Accum where
  value : Word
  count : Byte
  sat : Bool
  armed : Bool
deriving DecidableEq, Repr

/-! ### Sequence Unit (chapter 8) -/

/-- A posting record as the link carries it (R196). -/
structure PostRec where
  channel : Byte
  kind : Byte
  delay : Half
  value : Half
  extra : Half
deriving DecidableEq, Repr

/-- A transition slot as written (R134, R199). -/
structure Slot where
  target : Byte
  source : Byte
  index : Byte
  negate : Byte
deriving DecidableEq, Repr

/-- A state record as written (R133, R199). -/
structure StateRec where
  defined : Byte
  gate : Half
  status : BitVec 6
  dwell : Half
  count : Byte
  postings : Bank PostRec 4
  slots : Bank Slot 4
deriving DecidableEq, Repr

/-- Unit state of the Sequence Unit (R138). -/
inductive UnitState where
  | disabled
  | running
  | held
deriving DecidableEq, Repr

/-- One flag for each event source (R143). -/
structure EventSet where
  rampDone : Half
  accum : Half
  senseEdge : Half
  trigger : BitVec 4
deriving DecidableEq, Repr

/-- What made the unit enter a line state (R148). -/
inductive EntryCause where
  | slot
  | arm
  | homePin
  | seqHome
deriving DecidableEq, Repr

/-- The Sequence Unit (chapter 8's table). -/
structure SeqUnit where
  table : Bank StateRec 10
  anySlots : Bank Slot 6
  unit : UnitState
  home : Option LineId
  current : Option LineId
  dwell : Nat
  latches : EventSet
  held : EventSet
  drops : Nat
  gate : Half
  status : BitVec 6
deriving DecidableEq, Repr

/-! ### Check Engine (chapter 9) -/

/-- The two passes of a check (R158). -/
inductive Pass where
  | static
  | pulse
deriving DecidableEq, Repr

/-- Which passes a CHECK asks for (R156). -/
inductive Passes where
  | static
  | pulse
  | both
deriving DecidableEq, Repr

/-- Visiting order (R158). -/
inductive VisitOrder where
  | ascending
  | scrambled
deriving DecidableEq, Repr

/-- The steps of a visit (R158). -/
inductive CheckStep where
  | idle
  | aOn
  | bOn
  | pulsePos
  | pulseNeg
deriving DecidableEq, Repr

/-- What a failure record names as its step (R161). -/
inductive FailStep where
  | step (s : CheckStep)
  | skipped
deriving DecidableEq, Repr

/-- A failure record (R161). Levels are recorded as 0 LOW, 1 HIGH. -/
structure Failure where
  pass : Pass
  channel : ChanId
  step : FailStep
  expected : Nat
  observed : Nat
  index : Nat
deriving DecidableEq, Repr

/-- The parameters of a CHECK (chapter 9's table of parameters). -/
structure CheckParams where
  mask : Half
  passes : Passes
  order : VisitOrder
  settle : Nat
  pulse : Nat
  level : Nat
deriving DecidableEq, Repr

/-- Where a running check stands (R158): pass, place in the visiting order, step, frames completed. -/
structure Position where
  pass : Pass
  place : Nat
  step : CheckStep
  frames : Nat
deriving DecidableEq, Repr

/-- Status of the current or last check. -/
inductive CheckStatus where
  | none
  | inProgress
  | pass
  | fail
  | aborted
deriving DecidableEq, Repr

/-- Why the last check was aborted (R164). -/
inductive AbortReason where
  | none
  | host
  | interlock (i : IlId)
deriving DecidableEq, Repr

/-- The Check Engine (chapter 9's table). -/
structure CheckEngine where
  running : Bool
  status : CheckStatus
  reason : AbortReason
  params : Option CheckParams
  position : Option Position
  edges : Nat
  frameIndex : Nat
  log : List Failure
  failures : Nat
  failed : Half
deriving DecidableEq, Repr

/-! ### Mode Controller (chapter 10) -/

/-- Operating mode (R168). -/
inductive OpMode where
  | starting
  | setup
  | run
  | check
deriving DecidableEq, Repr

/-- Reset cause (R170). -/
inductive ResetCause where
  | power
  | pin
  | restart
deriving DecidableEq, Repr

/-- The Mode Controller (chapter 10's table). -/
structure ModeCtl where
  mode : OpMode
  cause : ResetCause
  startCount : Nat
  layoutOk : Bool
  timebaseOk : Bool
  readLock : Bool
  writeLockConfig : Bool
  writeLockAll : Bool
deriving DecidableEq, Repr

/-! ### Link Unit (chapter 11) -/

/-- A frame without SYNC, LEN and CRC (R194). -/
structure Frame where
  kind : Byte
  tag : Byte
  body : List Byte
deriving DecidableEq, Repr

/-- Receiver state, with the bytes of the frame received after SYNC (R180). -/
inductive Rx where
  | hunting
  | inFrame (bytes : List Byte)
deriving DecidableEq, Repr

/-- The request in service (R181, R183): the RESULT byte and the fields that its taking gave, and its reply, none where
that is not built yet (R182; log 13). -/
structure Service where
  request : Frame
  result : Byte
  fields : List Byte
  reply : Option Frame
deriving DecidableEq, Repr

/-- The two kinds of frame the part sends (R191). -/
inductive FrameClass where
  | reply
  | notice
deriving DecidableEq, Repr

/-- The transmitter (R191). -/
inductive Tx where
  | idle
  | sending (f : Frame) (c : FrameClass)
deriving DecidableEq, Repr

/-- What a unit offers to the Notice Queue (R187, R200). -/
inductive Occurrence where
  | ready (cause : ResetCause) (rate : BitVec 2)
  | trip (il : IlId) (mask : Half) (removed : Nat)
  | flow (hold : Bool)
  | transition (left : Option LineId) (entered : LineId) (cause : EntryCause) (bnum : Word)
  | channelEvent (mask : Half)
  | accum (mask : Half)
  | seqDrop (line : LineId) (drops : Nat)
  | checkDone (status : CheckStatus) (reason : AbortReason) (failures : Nat)
  | boundary (bnum : Word) (forced : Bool)
deriving DecidableEq, Repr

/-- A pending notice: its fields and its count (R188). -/
structure Notice where
  occ : Occurrence
  count : Nat
deriving DecidableEq, Repr

/-- The Link Unit (chapter 11's table). `restarting`: RESTART has been taken (R176). `rate`: the link rate
read from the straps at the end of STARTING (R169). -/
structure Link where
  rx : Rx
  waiting : List Frame
  service : Option Service
  overrun : Bool
  framingErrors : Nat
  crcErrors : Nat
  overruns : Nat
  notices : List Notice
  mask : Half
  tx : Tx
  lastFrame : FrameClass
  restarting : Bool
  rate : Option (BitVec 2)
deriving DecidableEq, Repr

/-- The levels of the pins the part reads, as they last were (00_scope.md 1.2; log 5). -/
structure Pins where
  s : Half
  il : BitVec 4
  home : Level
  c : BitVec 6
  rate1 : Level
  rate0 : Level
  resetAsserted : Bool
deriving DecidableEq, Repr

/-- The whole part. `pending` is the queue of commands; `freeCount` numbers the choices taken from
`Config.freePick` (log 9). -/
structure State where
  pending : List Instr
  tb : Timebase
  queue : PostingQueue
  chans : Bank Channel 16
  outs : Bank Out 16
  senses : Bank Sense 16
  sampler : Sampler
  ils : Bank Interlock 4
  home : HomeInput
  trips : Bank Trip 16
  accs : Bank Accum 16
  seq : SeqUnit
  check : CheckEngine
  ctl : ModeCtl
  link : Link
  pins : Pins
  freeCount : Nat
deriving DecidableEq, Repr

/-! ### Outcomes -/

/-- No command of the part faults: the spec names no machine fault, and every command is an event that the
part takes or that finds nothing to do. -/
inductive Fault where
deriving DecidableEq, Repr

/-- Why a step is refused. -/
inductive Refusal where
  /-- The command has no meaning in this model yet. Raised by exec's arms alone; safe: nothing can be
  proved of a step that does not happen. No arm raises it at present. -/
  | notModelled (mnemonic : String)
deriving DecidableEq, Repr

/-! ### Reset values -/

/-- The reset settings (R17). -/
def TbSettings.reset : TbSettings := { prescale := 0, period := 2000, rep := 0, align := .edge }

/-- The Timebase after reset (R17). -/
def Timebase.reset : Timebase :=
  { active := .reset, staged := .reset, divider := 0, counter := 0, dir := .up, rep := 0, bnum := 0,
    run := .stopped, frameEndDue := false }

/-- The Posting Queue after reset (R44). -/
def PostingQueue.reset : PostingQueue := { entries := [], hold := false, holdAt := 24, resumeAt := 16 }

/-- The configuration of a channel after reset (R47). -/
def ChanCfg.reset : ChanCfg :=
  { polA := .activeHigh, polB := .activeHigh, safe := .inactive, edge := .rising, filter := 0,
    endStop := .off, accMode := .wrap, threshold := 2147483647, defLo := -10000, defHi := 10000,
    expIdle := .low, expA := .high, expB := .low }

/-- A channel after reset (R45, R73). -/
def Channel.reset : Channel :=
  { mode := .unused, deadTime := 0, member := 0, role := .none, cfg := .reset, pendCfg := none,
    act := { drive := .off, level := 0, lo := 0, hi := 10000, ramp := none }, clamped := false }

/-- The Output Stage of a channel after reset (R88). -/
def Out.reset : Out :=
  { compare := 0, side := .none, ref := false, wantA := false, wantB := false, wtA := 0, wtB := 0,
    offA := 0, offB := 0, pinA := .released, pinB := .released, prior := none }

/-- The Sense Unit of a channel after reset (R92, R103). -/
def Sense.reset : Sense := { filtered := .low, run := 0, capture := none, captured := false, overcaptured := false }

/-- The sample clock and the condition samples after reset (R91, R135). -/
def Sampler.reset : Sampler := { phase := 0, cond := 0 }

/-- An interlock after reset (R104, R105). -/
def Interlock.reset : Interlock :=
  { polarity := .activeLow, filter := 0, rearm := .manual, filtered := .high, run := 0 }

/-- The HOME input after reset (R104, R105). -/
def HomeInput.reset : HomeInput := { filter := 0, filtered := .high, run := 0 }

/-- A trip latch and cause set after reset (R118). -/
def Trip.reset : Trip := { latch := false, cause := 0 }

/-- A cleared accumulator (R129, R132). -/
def Accum.cleared : Accum := { value := 0, count := 0, sat := false, armed := true }

/-- No event latched or held (R155). -/
def EventSet.empty : EventSet := { rampDone := 0, accum := 0, senseEdge := 0, trigger := 0 }

/-- A posting record place that nothing has written: the spec gives its fields no values, the model 0 (R133;
DESIGN CHOICE, log 30). -/
def PostRec.zero : PostRec := { channel := 0, kind := 0, delay := 0, value := 0, extra := 0 }

/-- An empty slot as reset leaves it: source NONE (R134). The spec gives its target, index and negate flag no
values, the model 0 (DESIGN CHOICE, log 30). -/
def Slot.empty : Slot := { target := 0, source := 0, index := 0, negate := 0 }

/-- A state record after reset (R133). -/
def StateRec.reset : StateRec :=
  { defined := 0, gate := 0, status := 0, dwell := 0, count := 0, postings := .fill 4 .zero,
    slots := .fill 4 .empty }

/-- The Sequence Unit after reset (R155). -/
def SeqUnit.reset : SeqUnit :=
  { table := .fill 10 .reset, anySlots := .fill 6 .empty, unit := .disabled, home := none, current := none,
    dwell := 0, latches := .empty, held := .empty, drops := 0, gate := 0xFFFF, status := 0 }

/-- The Check Engine after reset (R167). -/
def CheckEngine.reset : CheckEngine :=
  { running := false, status := .none, reason := .none, params := none, position := none, edges := 0,
    frameIndex := 0, log := [], failures := 0, failed := 0 }

/-- The Mode Controller after a reset of the given cause (chapter 10's table). -/
def ModeCtl.afterReset (cause : ResetCause) : ModeCtl :=
  { mode := .starting, cause := cause, startCount := 0, layoutOk := false, timebaseOk := false,
    readLock := false, writeLockConfig := false, writeLockAll := false }

/-- The Link Unit after reset (chapter 11's table). -/
def Link.reset : Link :=
  { rx := .hunting, waiting := [], service := none, overrun := false, framingErrors := 0, crcErrors := 0,
    overruns := 0, notices := [], mask := Config.defaultMask, tx := .idle, lastFrame := .notice,
    restarting := false, rate := none }

/-- The input pins as the model takes them before any command says otherwise: S and C low, IL and HOME
high, straps low, RESET not asserted. DESIGN CHOICE (log 5): the spec gives no levels. -/
def Pins.initial : Pins :=
  { s := 0, il := 0xF, home := .high, c := 0, rate1 := .low, rate0 := .low, resetAsserted := false }

/-- The part right after a power-on reset (R169; log 17). -/
def State.reset : State :=
  { pending := [], tb := .reset, queue := .reset, chans := .fill 16 .reset, outs := .fill 16 .reset,
    senses := .fill 16 .reset, sampler := .reset, ils := .fill 4 .reset, home := .reset,
    trips := .fill 16 .reset, accs := .fill 16 .cleared, seq := .reset, check := .reset,
    ctl := .afterReset .power, link := .reset, pins := .initial, freeCount := 0 }

end Sys2Proof.Machine
end

