-- ==== Sys2Proof/Machine/Ops.lean ====
section
/-! DEFINITION. The operations every unit shares: taking a reset, free choices, the derived state (drive
states, interlock states, masks) and offering occurrences to the Notice Queue. -/

namespace Sys2Proof

/-- A level from a bit: HIGH for 1. -/
def Level.ofBool : Bool → Level
  | true => .high
  | false => .low

/-- The bit of a level. -/
def Level.bit : Level → Bool
  | .high => true
  | .low => false

end Sys2Proof

namespace Sys2Proof.Machine

/-! ### Taking a reset -/

/-- A reset of the given cause: every unit takes its reset values and the mode becomes STARTING (R169).
The commands waiting, the levels at the input pins and the numbering of free choices are not the part's
and stay (log 20). -/
def State.takeReset (cause : ResetCause) (s : State) : State :=
  { State.reset with
    pending := s.pending, ctl := .afterReset cause, pins := s.pins, freeCount := s.freeCount }

/-! ### Free choices -/

/-- One of `n` things that may be taken first: a free value below `n`; no choice is made where `n ≤ 1`. -/
def State.pick (n : Nat) (s : State) : Nat × State :=
  if n ≤ 1 then (0, s)
  else (Config.freePick s.freeCount % n, { s with freeCount := s.freeCount + 1 })

/-! ### Sets -/

/-- The channel mask of one channel (R193). -/
def oneChan (c : ChanId) : Half := chanMask fun d => decide (d = c)

/-- Interlock `i` as a set of one (R193). -/
def oneIl (i : IlId) : BitVec 4 := 1#4 <<< i.val

/-! ### Channels -/

/-- A channel is used when its mode is not UNUSED (R45). -/
def Channel.used (ch : Channel) : Bool := decide (ch.mode ≠ .unused)

/-- Channel `c` is used under the layout in force. -/
def State.used (s : State) (c : ChanId) : Bool := (s.chans.get c).used

/-- The trip latch of channel `c`. -/
def State.latched (s : State) (c : ChanId) : Bool := (s.trips.get c).latch

/-- The channels whose trip latch is set (R106). -/
def State.tripMask (s : State) : Half := chanMask s.latched

/-- The gate mask admits channel `c` (R64). -/
def State.admits (s : State) (c : ChanId) : Bool := s.seq.gate.getLsbD c.val

/-- The channel at a place of the visiting order (R158). -/
def visitChannel (o : VisitOrder) (place : Nat) : ChanId :=
  match o with
  | .ascending => Fin.ofNat 16 place
  | .scrambled => Fin.ofNat 16 (5 * place + 3)

/-- The channel the Check Engine is driving, if any (R158). -/
def CheckEngine.channel (k : CheckEngine) : Option ChanId :=
  match k.params, k.position with
  | some q, some p => some (visitChannel q.order p.place)
  | _, _ => none

/-- The drive state of an active set in RUN, with latch clear and gate admitting (R64). -/
def ActiveSet.driveState (a : ActiveSet) : DriveState :=
  match a.drive with
  | .off => .idle
  | .brake => .braked
  | .on => if a.ramp.isSome then .ramping else .driving

/-- The drive state of channel `c`, derived from the rest of the state (R64, R65). -/
def State.driveState (s : State) (c : ChanId) : DriveState :=
  if s.used c then
    match s.ctl.mode with
    | .starting => .unused
    | .setup => if s.latched c then .tripped else .idle
    | .check =>
      if s.check.channel = some c then .checking else if s.latched c then .tripped else .idle
    | .run =>
      if s.latched c then .tripped
      else if s.admits c then (s.chans.get c).act.driveState
      else .blocked
  else .unused

/-- The drive state is DRIVING or RAMPING. -/
def DriveState.drives : DriveState → Bool
  | .driving => true
  | .ramping => true
  | _ => false

/-! ### Interlocks -/

/-- An interlock is ACTIVE when its filtered level is its polarity's active level (R105). -/
def Interlock.active (i : Interlock) : Bool :=
  match i.polarity, i.filtered with
  | .activeLow, .low => true
  | .activeHigh, .high => true
  | .activeLow, .high => false
  | .activeHigh, .low => false

/-- Channel `c` is a used member of interlock `i` (R107). -/
def State.member (s : State) (i : IlId) (c : ChanId) : Bool :=
  s.used c && (s.chans.get c).member.getLsbD i.val

/-- Some interlock in the membership of channel `c` is ACTIVE (R111). -/
def State.guarded (s : State) (c : ChanId) : Bool :=
  allIls.any fun i => (s.chans.get c).member.getLsbD i.val && (s.ils.get i).active

/-! ### The Timebase's facts -/

/-- The frame index: active REPEAT minus the repetition counter (R6). -/
def Timebase.frameIndex (t : Timebase) : Nat := t.active.rep - t.rep

/-- The counters at the start of a frame: divider 0, counter 0, direction UP. -/
def Timebase.restart (t : Timebase) : Timebase := { t with divider := 0, counter := 0, dir := .up }

/-! ### Notices (R187, R188) -/

/-- The number of an occurrence's kind: its frame KIND is 0x40 plus this (R187). -/
def Occurrence.kind : Occurrence → Nat
  | .ready _ _ => 0
  | .trip _ _ _ => 1
  | .flow _ => 2
  | .transition _ _ _ _ => 3
  | .channelEvent _ => 4
  | .accum _ => 5
  | .seqDrop _ _ => 6
  | .checkDone _ _ _ => 7
  | .boundary _ _ => 8

/-- The fields after a merge: channel masks ORed, every other field the new occurrence's (R188). -/
def Occurrence.merge (old new : Occurrence) : Occurrence :=
  match old, new with
  | .trip _ m _, .trip i m' r => .trip i (m ||| m') r
  | .channelEvent m, .channelEvent m' => .channelEvent (m ||| m')
  | .accum m, .accum m' => .accum (m ||| m')
  | _, o => o

/-- A pending notice absorbs an occurrence: count up to 255 (R188). -/
def Notice.absorb (n : Notice) (o : Occurrence) : Notice :=
  { occ := n.occ.merge o, count := min (n.count + 1) 255 }

/-- A notice of kind number `k` may be queued under the mask (R188). -/
def Link.admitsKind (l : Link) (k : Nat) : Bool := l.mask.getLsbD k

/-- An occurrence is offered to the Notice Queue (R188): READY is not subject to the mask and not merged
(R170); another is discarded by the mask, merged into the pending notice of its kind, or appended. -/
def Link.offer (l : Link) (o : Occurrence) : Link :=
  if o.kind = 0 then { l with notices := l.notices ++ [{ occ := o, count := 1 }] }
  else if l.admitsKind o.kind then
    if l.notices.any fun n => decide (n.occ.kind = o.kind) then
      { l with notices := l.notices.map fun n => if n.occ.kind = o.kind then n.absorb o else n }
    else { l with notices := l.notices ++ [{ occ := o, count := 1 }] }
  else l

/-- An occurrence is offered by some unit. -/
def State.offer (o : Occurrence) (s : State) : State := { s with link := s.link.offer o }

/-- An occurrence is offered if the condition holds. -/
def State.offerIf (b : Bool) (o : Occurrence) (s : State) : State := if b then s.offer o else s

/-- The unit that offers a kind at a boundary: Timebase, Posting Queue, Accumulator Unit, Sequence Unit,
Check Engine (R187). -/
def unitOfKind (k : Nat) : Nat :=
  match k with
  | 8 => 0
  | 2 => 1
  | 4 => 2
  | 5 => 2
  | 3 => 3
  | 6 => 3
  | _ => 4

/-- The places in a list of new notices that may stand next: each is the first of its unit. -/
def nextPlaces (l : List Notice) : List Nat :=
  (List.range l.length).filter fun i =>
    match l[i]? with
    | some n => !(l.take i).any fun m => decide (unitOfKind m.occ.kind = unitOfKind n.occ.kind)
    | none => false

/-- The new notices in an order that keeps each unit's own order and is free otherwise (R188). -/
def orderNew : Nat → List Notice → State → List Notice × State
  | 0, l, s => (l, s)
  | fuel + 1, l, s =>
    let places := nextPlaces l
    let (k, s) := s.pick places.length
    let i := places.getD k 0
    match l[i]? with
    | none => (l, s)
    | some n =>
      let (rest, s) := orderNew fuel (l.eraseIdx i) s
      (n :: rest, s)

/-- The notices that a boundary's work started (those after the first `old`) stand in the order in which
they arrived, which is free between units (R188). -/
def State.settleOrder (old : Nat) (s : State) : State :=
  let fresh := s.link.notices.drop old
  let (l, s) := orderNew fresh.length fresh s
  { s with link := { s.link with notices := s.link.notices.take old ++ l } }

end Sys2Proof.Machine
end

