-- ==== Sys2Proof/Machine/Operands.lean ====
section
/-! DEFINITION. The fields of message bodies: their bytes (R193), the code tables (R193, R195, R197), the
record forms (R195, R196, R198, R199), and the checks of a posting record (R22). -/

namespace Sys2Proof

/-- A level (R195). -/
def Level.code : Level → Nat
  | .low => 0
  | .high => 1

/-- A level from its code. -/
def Level.ofCode (n : Nat) : Option Level :=
  match n with
  | 0 => some .low
  | 1 => some .high
  | _ => none

end Sys2Proof

namespace Sys2Proof.Machine

/-! ### Fields of bytes (R193: least significant byte first) -/

/-- The byte at offset `i` of a body. -/
def byteAt (body : List Byte) (i : Nat) : Byte := body.getD i 0

/-- The 2-byte field at offset `i`. -/
def halfAt (body : List Byte) (i : Nat) : Half := byteAt body (i + 1) ++ byteAt body i

/-- The 4-byte field at offset `i`. -/
def wordAt (body : List Byte) (i : Nat) : Word := halfAt body (i + 2) ++ halfAt body i

/-- The bytes of a 2-byte field. -/
def halfBytes (h : Half) : List Byte := [h.extractLsb' 0 8, h.extractLsb' 8 8]

/-- The bytes of a 4-byte field. -/
def wordBytes (w : Word) : List Byte :=
  [w.extractLsb' 0 8, w.extractLsb' 8 8, w.extractLsb' 16 8, w.extractLsb' 24 8]

/-- A 1-byte unsigned field. -/
def natByte (n : Nat) : Byte := BitVec.ofNat 8 n

/-- A 2-byte unsigned field. -/
def natHalf (n : Nat) : List Byte := halfBytes (BitVec.ofNat 16 n)

/-- A 2-byte signed field, two's complement. -/
def intHalf (v : Int) : List Byte := halfBytes (BitVec.ofInt 16 v)

/-- A field of one flag, 0 or 1. -/
def boolByte (b : Bool) : Byte := if b then 1 else 0

/-- A byte of flags, bit n for the n-th flag. -/
def flagsByte (flags : List Bool) : Byte := (BitVec.ofBoolListLE flags).setWidth 8

/-! ### Code tables -/

/-- Result codes (R183). -/
inductive Result where
  | ok
  | badKind
  | badLength
  | badArg
  | refusedState
  | order
  | locked
  | queueFull
  | tripped
  | badTable
  | ilActive
deriving DecidableEq, Repr

/-- The RESULT byte (R183). -/
def Result.code : Result → Byte
  | .ok => 0x00
  | .badKind => 0x01
  | .badLength => 0x02
  | .badArg => 0x03
  | .refusedState => 0x04
  | .order => 0x05
  | .locked => 0x06
  | .queueFull => 0x07
  | .tripped => 0x08
  | .badTable => 0x09
  | .ilActive => 0x0A

/-- Mode of a channel (R193). -/
def ChanMode.code : ChanMode → Nat
  | .unused => 0
  | .single => 1
  | .complement => 2
  | .directional => 3

/-- Mode of a channel from its two bits (R198: every code is a mode). -/
def ChanMode.ofCode (n : Nat) : ChanMode :=
  match n with
  | 0 => .unused
  | 1 => .single
  | 2 => .complement
  | _ => .directional

/-- Drive state (R193). -/
def DriveState.code : DriveState → Nat
  | .unused => 0
  | .idle => 1
  | .driving => 2
  | .ramping => 3
  | .braked => 4
  | .blocked => 5
  | .tripped => 6
  | .checking => 7

/-- Kind of entry (R193). -/
def Kind.code : Kind → Nat
  | .level => 0
  | .ramp => 1
  | .drive => 2
  | .clamp => 3

/-- Commanded drive, DRIVE value (R193). -/
def Drive.code : Drive → Nat
  | .off => 0
  | .on => 1
  | .brake => 2

/-- Commanded drive from its code. -/
def Drive.ofCode (n : Nat) : Option Drive :=
  match n with
  | 0 => some .off
  | 1 => some .on
  | 2 => some .brake
  | _ => none

/-- Sense role (R193). -/
def SenseRole.code : SenseRole → Nat
  | .none => 0
  | .capture => 1
  | .endStop => 2

/-- Sense role from its code. -/
def SenseRole.ofCode (n : Nat) : Option SenseRole :=
  match n with
  | 0 => some .none
  | 1 => some .capture
  | 2 => some .endStop
  | _ => Option.none

/-- Polarity of a channel's output (R193: ACTIVE_HIGH 0). -/
def Polarity.outCode : Polarity → Nat
  | .activeHigh => 0
  | .activeLow => 1

/-- Polarity of a channel's output from its code. -/
def Polarity.ofOutCode (n : Nat) : Option Polarity :=
  match n with
  | 0 => some .activeHigh
  | 1 => some .activeLow
  | _ => none

/-- Polarity of an interlock (R193: ACTIVE_LOW 0). -/
def Polarity.ilCode : Polarity → Nat
  | .activeLow => 0
  | .activeHigh => 1

/-- Polarity of an interlock from its code. -/
def Polarity.ofIlCode (n : Nat) : Option Polarity :=
  match n with
  | 0 => some .activeLow
  | 1 => some .activeHigh
  | _ => none

/-- Rearm mode (R193). -/
def Rearm.code : Rearm → Nat
  | .manual => 0
  | .auto => 1

/-- Rearm mode from its code. -/
def Rearm.ofCode (n : Nat) : Option Rearm :=
  match n with
  | 0 => some .manual
  | 1 => some .auto
  | _ => none

/-- Accumulator mode (R193). -/
def AccMode.code : AccMode → Nat
  | .wrap => 0
  | .saturate => 1
  | .magnitude => 2

/-- Accumulator mode from its code. -/
def AccMode.ofCode (n : Nat) : Option AccMode :=
  match n with
  | 0 => some .wrap
  | 1 => some .saturate
  | 2 => some .magnitude
  | _ => none

/-- Safe pattern (R195). -/
def SafePattern.code : SafePattern → Nat
  | .inactive => 0
  | .float => 1
  | .brake => 2

/-- Safe pattern from its code. -/
def SafePattern.ofCode (n : Nat) : Option SafePattern :=
  match n with
  | 0 => some .inactive
  | 1 => some .float
  | 2 => some .brake
  | _ => none

/-- Sense edge (R195). -/
def SenseEdge.code : SenseEdge → Nat
  | .rising => 0
  | .falling => 1
  | .both => 2

/-- Sense edge from its code. -/
def SenseEdge.ofCode (n : Nat) : Option SenseEdge :=
  match n with
  | 0 => some .rising
  | 1 => some .falling
  | 2 => some .both
  | _ => none

/-- End-stop action (R195). -/
def EndStop.code : EndStop → Nat
  | .off => 0
  | .brake => 1

/-- End-stop action from its code. -/
def EndStop.ofCode (n : Nat) : Option EndStop :=
  match n with
  | 0 => some .off
  | 1 => some .brake
  | _ => none

/-- ALIGN (R195). -/
def Align.code : Align → Nat
  | .edge => 0
  | .centred => 1

/-- ALIGN from its code. -/
def Align.ofCode (n : Nat) : Option Align :=
  match n with
  | 0 => some .edge
  | 1 => some .centred
  | _ => none

/-- Passes of a CHECK (R195). -/
def Passes.code : Passes → Nat
  | .static => 0
  | .pulse => 1
  | .both => 2

/-- Passes of a CHECK from their code. -/
def Passes.ofCode (n : Nat) : Option Passes :=
  match n with
  | 0 => some .static
  | 1 => some .pulse
  | 2 => some .both
  | _ => none

/-- Visiting order (R195). -/
def VisitOrder.code : VisitOrder → Nat
  | .ascending => 0
  | .scrambled => 1

/-- Visiting order from its code. -/
def VisitOrder.ofCode (n : Nat) : Option VisitOrder :=
  match n with
  | 0 => some .ascending
  | 1 => some .scrambled
  | _ => none

/-- A line state, none as 0xFF (R193). -/
def lineCode : Option LineId → Byte
  | some l => natByte l.val
  | none => 0xFF

/-- A line state from its number. -/
def lineOf (b : Byte) : Option LineId := if h : b.toNat < 10 then some ⟨b.toNat, h⟩ else none

/-- A channel from its number. -/
def chanOf (b : Byte) : Option ChanId := if h : b.toNat < 16 then some ⟨b.toNat, h⟩ else none

/-- Entry cause (R193). -/
def EntryCause.code : EntryCause → Nat
  | .slot => 0
  | .arm => 1
  | .homePin => 2
  | .seqHome => 3

/-- Operating mode in replies (R194, R197); STARTING never appears in one (R184). -/
def OpMode.code : OpMode → Nat
  | .starting => 0
  | .setup => 1
  | .run => 2
  | .check => 3

/-- Unit state (R197). -/
def UnitState.code : UnitState → Nat
  | .disabled => 0
  | .running => 1
  | .held => 2

/-- Check status (R197). -/
def CheckStatus.code : CheckStatus → Nat
  | .none => 0
  | .inProgress => 1
  | .pass => 2
  | .fail => 3
  | .aborted => 4

/-- Abort reason (R197). -/
def AbortReason.code : AbortReason → Nat
  | .none => 0
  | .host => 1
  | .interlock _ => 2

/-- The interlock number of an abort reason, 0 where there is none (R193). -/
def AbortReason.ilCode : AbortReason → Nat
  | .none => 0
  | .host => 0
  | .interlock i => i.val

/-- Pass (R197). -/
def Pass.code : Pass → Nat
  | .static => 0
  | .pulse => 1

/-- Step of a check (R197). -/
def CheckStep.code : CheckStep → Nat
  | .idle => 0
  | .aOn => 1
  | .bOn => 2
  | .pulsePos => 3
  | .pulseNeg => 4

/-- Step of a failure record (R197). -/
def FailStep.code : FailStep → Nat
  | .step s => s.code
  | .skipped => 5

/-- Origin of an entry (R197). -/
def Origin.code : Origin → Nat
  | .host => 0
  | .sequence => 1

/-- Reset cause (R200). -/
def ResetCause.code : ResetCause → Nat
  | .power => 0
  | .pin => 1
  | .restart => 2

/-- What the owning unit answers to a request: the result, the fields that follow RESULT and STATUS in the
reply, and the state after the request's effects (R183, R184). -/
structure Answer where
  result : Result
  fields : List Byte
  state : State
deriving DecidableEq, Repr

/-- A request taken, with the fields of its reply. -/
def Answer.ok (fields : List Byte) (s : State) : Answer := { result := .ok, fields := fields, state := s }

/-- A request refused, with the detail of its reply: nothing but the reply follows (R183). -/
def Answer.refuse (r : Result) (detail : List Byte) (s : State) : Answer :=
  { result := r, fields := detail, state := s }

/-! ### Setpoints and posting records -/

/-- The kind of a setpoint (R18). -/
def Setpoint.kind : Setpoint → Kind
  | .level _ => .level
  | .ramp _ _ => .ramp
  | .drive _ => .drive
  | .clamp _ _ => .clamp

/-- The value field of a setpoint in a reply (R197). -/
def Setpoint.valueBytes : Setpoint → List Byte
  | .level v => intHalf v
  | .ramp t _ => intHalf t
  | .drive d => natHalf d.code
  | .clamp lo _ => intHalf lo

/-- The extra field of a setpoint in a reply; absent for LEVEL and DRIVE, sent as 0 (R193). -/
def Setpoint.extraBytes : Setpoint → List Byte
  | .level _ => natHalf 0
  | .ramp _ st => natHalf st
  | .drive _ => natHalf 0
  | .clamp _ hi => intHalf hi

/-- The posting record at offset `i` of a body (R196). -/
def postRecAt (body : List Byte) (i : Nat) : PostRec :=
  { channel := byteAt body i, kind := byteAt body (i + 1), delay := halfAt body (i + 2),
    value := halfAt body (i + 4), extra := halfAt body (i + 6) }

/-- The bytes of a posting record (R196). -/
def PostRec.bytes (r : PostRec) : List Byte :=
  [r.channel, r.kind] ++ halfBytes r.delay ++ halfBytes r.value ++ halfBytes r.extra

/-- The records of a POST body (R195, R196). -/
def postRecords (body : List Byte) : List PostRec :=
  (List.range (body.length / 8)).map fun k => postRecAt body (8 * k)

/-- A value lies within −10000 to +10000. -/
def inLevelRange (v : Int) : Bool := decide (-Config.fullLevel ≤ v) && decide (v ≤ Config.fullLevel)

/-- Checks 3 to 10 of R22 on a record for a channel of the given mode: the setpoint, or the number of the
first check that fails. -/
def checkSetpoint (mode : ChanMode) (r : PostRec) : Except Nat Setpoint :=
  let v := r.value.toInt
  let x := r.extra.toInt
  if 4 ≤ r.kind.toNat then .error 3
  else if 4095 < r.delay.toNat then .error 4
  else
    match r.kind.toNat with
    | 0 =>
      if !inLevelRange v then .error 5
      else if v < 0 ∧ mode ≠ .directional then .error 6
      else .ok (.level v)
    | 1 =>
      if !inLevelRange v then .error 5
      else if v < 0 ∧ mode ≠ .directional then .error 6
      else if r.extra.toNat < 1 ∨ 10000 < r.extra.toNat then .error 7
      else .ok (.ramp v r.extra.toNat)
    | 2 =>
      match Drive.ofCode r.value.toNat with
      | some d => .ok (.drive d)
      | none => .error 8
    | _ =>
      if v < -Config.fullLevel ∨ 0 < v ∨ x < 0 ∨ Config.fullLevel < x then .error 9
      else if v < 0 ∧ mode ≠ .directional then .error 10
      else .ok (.clamp v x)

/-- A record that passed its checks: channel, setpoint and delay. -/
structure Posting where
  channel : ChanId
  setpoint : Setpoint
  delay : Nat
deriving DecidableEq, Repr

/-- All ten checks of R22 on a POST record: the posting, or the result and the number of the first check
that fails. -/
def State.checkRecord (s : State) (r : PostRec) : Except (Result × Nat) Posting :=
  match chanOf r.channel with
  | none => .error (.badArg, 1)
  | some c =>
    if !s.used c then .error (.badArg, 1)
    else if s.latched c then .error (.tripped, 2)
    else
      match checkSetpoint (s.chans.get c).mode r with
      | .error n => .error (.badArg, n)
      | .ok sp => .ok { channel := c, setpoint := sp, delay := r.delay.toNat }

/-- The checks SEQ_ARM makes on an entry posting (R139): the posting, or `false` for POSTING_CHANNEL and
`true` for POSTING_VALUE. -/
def State.checkEntryPosting (s : State) (r : PostRec) : Except Bool Posting :=
  match chanOf r.channel with
  | none => .error false
  | some c =>
    if !s.used c then .error false
    else
      match checkSetpoint (s.chans.get c).mode r with
      | .error _ => .error true
      | .ok sp => .ok { channel := c, setpoint := sp, delay := r.delay.toNat }

/-! ### Timebase settings (R195) -/

/-- The bytes of the four settings, as the TIMEBASE body. -/
def TbSettings.bytes (t : TbSettings) : List Byte :=
  [natByte t.prescale] ++ natHalf t.period ++ [natByte t.rep, natByte t.align.code]

/-! ### Configuration (R47, R48, R195) -/

/-- The configuration fields of a CONFIG_WRITE body, or the number (R48) of the first field that fails. The
channel is field 1. -/
def configAt (body : List Byte) : Except Nat (ChanId × ChanCfg) :=
  let n := fun i => (byteAt body i).toNat
  let lo := (halfAt body 12).toInt
  let hi := (halfAt body 14).toInt
  match chanOf (byteAt body 0) with
  | none => .error 1
  | some c =>
    match Polarity.ofOutCode (n 1), Polarity.ofOutCode (n 2) with
    | some pa, some pb =>
      match SafePattern.ofCode (n 3) with
      | none => .error 3
      | some safe =>
        match SenseEdge.ofCode (n 4) with
        | none => .error 4
        | some edge =>
          if 15 < n 5 then .error 5
          else
            match EndStop.ofCode (n 6) with
            | none => .error 6
            | some stop =>
              match AccMode.ofCode (n 7) with
              | none => .error 7
              | some acc =>
                if lo < -Config.fullLevel ∨ 0 < lo then .error 8
                else if hi < 0 ∨ Config.fullLevel < hi then .error 9
                else
                  match Level.ofCode (n 16), Level.ofCode (n 17), Level.ofCode (n 18) with
                  | some ei, some ea, some eb =>
                    .ok (c, { polA := pa, polB := pb, safe := safe, edge := edge, filter := n 5,
                              endStop := stop, accMode := acc, threshold := wordAt body 8,
                              defLo := lo, defHi := hi, expIdle := ei, expA := ea, expB := eb })
                  | _, _, _ => .error 10
    | _, _ => .error 2

/-- The 18 bytes of a configuration, as the CONFIG_WRITE body without its channel byte (R197). -/
def ChanCfg.bytes (g : ChanCfg) : List Byte :=
  [natByte g.polA.outCode, natByte g.polB.outCode, natByte g.safe.code, natByte g.edge.code,
   natByte g.filter, natByte g.endStop.code, natByte g.accMode.code]
  ++ wordBytes g.threshold ++ intHalf g.defLo ++ intHalf g.defHi
  ++ [natByte g.expIdle.code, natByte g.expA.code, natByte g.expB.code]

/-! ### Layout (R45, R104, R198) -/

/-- The layout of one channel (R45). -/
structure ChanLayout where
  mode : ChanMode
  deadTime : Nat
  member : BitVec 4
  role : SenseRole
deriving DecidableEq, Repr

/-- The settings of one interlock (R104). -/
structure IlSettings where
  polarity : Polarity
  filter : Nat
  rearm : Rearm
deriving DecidableEq, Repr

/-- The channel record of a LAYOUT body, none where it fails validation (R45, R198). -/
def chanLayoutAt (body : List Byte) (c : ChanId) : Option ChanLayout :=
  let b := byteAt body (2 * c.val)
  let d := (byteAt body (2 * c.val + 1)).toNat
  let mode := ChanMode.ofCode (b.extractLsb' 0 2).toNat
  let member := b.extractLsb' 2 4
  match SenseRole.ofCode (b.extractLsb' 6 2).toNat with
  | none => none
  | some role =>
    if 250 < d then none
    else if d ≠ 0 ∧ (mode = .unused ∨ mode = .single) then none
    else if mode = .unused ∧ (member ≠ 0 ∨ role ≠ .none) then none
    else some { mode := mode, deadTime := 4 * d, member := member, role := role }

/-- The interlock record of a LAYOUT body, none where it fails validation (R104, R198). -/
def ilSettingsAt (body : List Byte) (i : IlId) : Option IlSettings :=
  let n := fun k => (byteAt body (32 + 3 * i.val + k)).toNat
  match Polarity.ofIlCode (n 0), Rearm.ofCode (n 2) with
  | some p, some r => if 15 < n 1 then none else some { polarity := p, filter := n 1, rearm := r }
  | _, _ => none

/-- The index of the first fault of a LAYOUT body: a channel 0–15, an interlock record 16–19, the HOME
filter 20 (R172). -/
def layoutFault (body : List Byte) : Option Nat :=
  match allChans.find? fun c => (chanLayoutAt body c).isNone with
  | some c => some c.val
  | none =>
    match allIls.find? fun i => (ilSettingsAt body i).isNone with
    | some i => some (16 + i.val)
    | none => if 15 < (byteAt body 44).toNat then some 20 else none

/-- The two bytes of a channel record (R198). -/
def Channel.layoutBytes (ch : Channel) : List Byte :=
  [natByte (ch.mode.code + 4 * ch.member.toNat + 64 * ch.role.code), natByte (ch.deadTime / 4)]

/-- The three bytes of an interlock record (R198). -/
def Interlock.layoutBytes (i : Interlock) : List Byte :=
  [natByte i.polarity.ilCode, natByte i.filter, natByte i.rearm.code]

/-- The layout in force, in the form of the LAYOUT body (R173, R198). -/
def State.layoutBytes (s : State) : List Byte :=
  (allChans.flatMap fun c => (s.chans.get c).layoutBytes)
  ++ (allIls.flatMap fun i => (s.ils.get i).layoutBytes) ++ [natByte s.home.filter]

/-! ### Line Sequence Table sections (R199) -/

/-- The slot at offset `i` of a body. -/
def slotAt (body : List Byte) (i : Nat) : Slot :=
  { target := byteAt body i, source := byteAt body (i + 1), index := byteAt body (i + 2),
    negate := byteAt body (i + 3) }

/-- The bytes of a slot. -/
def Slot.bytes (t : Slot) : List Byte := [t.target, t.source, t.index, t.negate]

/-- The state record of a STATE section. Bits 6 and 7 of the status byte are not stored. -/
def stateRecAt (body : List Byte) : StateRec :=
  { defined := byteAt body 2, gate := halfAt body 3, status := (byteAt body 5).setWidth 6,
    dwell := halfAt body 6, count := byteAt body 8,
    postings := .ofFn fun k => postRecAt body (9 + 8 * k.val),
    slots := .ofFn fun k => slotAt body (41 + 4 * k.val) }

/-- The six slots of an ANY section. -/
def anySlotsAt (body : List Byte) : Bank Slot 6 := .ofFn fun k => slotAt body (1 + 4 * k.val)

/-- The bytes of a STATE section for state `l`. -/
def StateRec.bytes (l : LineId) (r : StateRec) : List Byte :=
  [0, natByte l.val, r.defined] ++ halfBytes r.gate ++ [r.status.setWidth 8] ++ halfBytes r.dwell
  ++ [r.count] ++ r.postings.data.flatMap PostRec.bytes ++ r.slots.data.flatMap Slot.bytes

/-- The bytes of the ANY section. -/
def anySectionBytes (b : Bank Slot 6) : List Byte := [1] ++ b.data.flatMap Slot.bytes

/-! ### Check parameters and records (R195, R197) -/

/-- The bytes of check parameters, as the CHECK body. -/
def CheckParams.bytes (q : CheckParams) : List Byte :=
  halfBytes q.mask
  ++ [natByte q.passes.code, natByte q.order.code, natByte q.settle, natByte q.pulse]
  ++ natHalf q.level

/-- The five bytes of a failure record. -/
def Failure.bytes (f : Failure) : List Byte :=
  [natByte (f.channel.val + 16 * f.step.code + 128 * f.pass.code), natByte f.expected, natByte f.observed]
  ++ natHalf f.index

/-! ### Notice bodies (R200) -/

/-- The fields of a notice after its count. -/
def Occurrence.bytes : Occurrence → List Byte
  | .ready cause rate => [natByte cause.code, rate.setWidth 8]
  | .trip i m r => [natByte i.val] ++ halfBytes m ++ [natByte r]
  | .flow h => [boolByte h]
  | .transition l e c b => [lineCode l, lineCode (some e), natByte c.code] ++ wordBytes b
  | .channelEvent m => halfBytes m
  | .accum m => halfBytes m
  | .seqDrop l d => [lineCode (some l), natByte d]
  | .checkDone st re n => [natByte st.code, natByte re.code, natByte re.ilCode] ++ natHalf n
  | .boundary b f => wordBytes b ++ [boolByte f]

/-- The frame of a notice: KIND 0x40 plus its kind's number, TAG 0, body count first (R184, R187, R200). -/
def Notice.frame (n : Notice) : Frame :=
  { kind := natByte (0x40 + n.occ.kind), tag := 0, body := natByte n.count :: n.occ.bytes }

end Sys2Proof.Machine
end

