-- ==== Sys2Proof/Machine/Flags.lean ====
section
/-! DEFINITION. Every computed flag: the HOLD tests, the flags derived from an accumulator, the
accumulator's comparison with its threshold, and the STATUS byte. -/

namespace Sys2Proof.Machine

/-! ### HOLD (R30, R31) -/

/-- HOLD takes a new value and the FLOW occurrence of the change is offered. -/
def State.changeHold (h : Bool) (s : State) : State :=
  State.offer (.flow h) { s with queue := { s.queue with hold := h } }

/-- The HOLD test after a new entry was appended (R30). -/
def State.holdAfterAppend (s : State) : State :=
  if s.queue.hold = false ∧ s.queue.holdAt ≤ s.queue.entries.length then s.changeHold true else s

/-- The HOLD test after one removal of entries (R31). -/
def State.holdAfterRemoval (s : State) : State :=
  if s.queue.hold = true ∧ s.queue.entries.length ≤ s.queue.resumeAt then s.changeHold false else s

/-! ### Accumulator flags (R125, R126) -/

/-- A 32-bit field read under an accumulator mode: unsigned in MAGNITUDE, signed otherwise (R126). -/
def AccMode.read (m : AccMode) (w : Word) : Int :=
  match m with
  | .magnitude => w.toNat
  | .wrap => w.toInt
  | .saturate => w.toInt

/-- Z: the value is 0 (R125). -/
def Accum.zeroFlag (a : Accum) : Bool := decide (a.value = 0)

/-- N: the value is negative; always clear in MAGNITUDE (R125). -/
def Accum.negFlag (m : AccMode) (a : Accum) : Bool := decide (m.read a.value < 0)

/-- The count as it is reported: 0 in SATURATE (R125). -/
def Accum.reportedCount (m : AccMode) (a : Accum) : Byte :=
  match m with
  | .saturate => 0
  | .wrap => a.count
  | .magnitude => a.count

/-- The flags byte of a QUERY_CHANNEL reply: SAT, armed, Z, N (R196). -/
def Accum.flags (m : AccMode) (a : Accum) : Byte :=
  flagsByte [a.sat, a.armed, a.zeroFlag, a.negFlag m]

/-! ### The STATUS byte (R184, R194) -/

/-- Some channel's trip latch is set. -/
def State.anyTrip (s : State) : Bool := decide (s.tripMask ≠ 0)

/-- The STATUS byte as the state stands: mode, HOLD, trip, OVERRUN, sequence RUNNING, notice pending. -/
def State.statusByte (s : State) : Byte :=
  natByte s.ctl.mode.code
  ||| flagsByte [false, false, s.queue.hold, s.anyTrip, s.link.overrun, decide (s.seq.unit = .running),
                 !s.link.notices.isEmpty]

/-- The flags byte of the STATUS reply (R197). -/
def State.statusFlags (s : State) : Byte :=
  flagsByte [s.ctl.layoutOk, s.ctl.timebaseOk, s.queue.hold, s.ctl.readLock, s.ctl.writeLockConfig,
             s.ctl.writeLockAll]

/-- The interlock states: bit i set when interlock i is ACTIVE (R197). -/
def State.ilStates (s : State) : Byte := flagsByte (allIls.map fun i => (s.ils.get i).active)

/-- The three lock flags as the LOCK body (R177, R195). -/
def State.lockByte (s : State) : Byte :=
  flagsByte [s.ctl.readLock, s.ctl.writeLockConfig, s.ctl.writeLockAll]

end Sys2Proof.Machine
end

