-- ==== Sys2Proof/Machine/Waveforms.lean ====
section
/-! DEFINITION. The Output Stage (chapter 4): compare values, the reference, wanted levels, dead-time,
pin drives, and the electrical level of a pin. -/

namespace Sys2Proof.Machine

/-! ### Compare value and reference -/

/-- The compare value of a level: floor of |level| × PERIOD / 10000 (R74). -/
def compareOf (level : Int) (period : Nat) : Nat := level.natAbs * period / 10000

/-- The side in force for a level of a channel: a DIRECTIONAL channel's sign (R74). -/
def sideOf (mode : ChanMode) (level : Int) : Side :=
  match mode with
  | .directional => if 0 < level then .a else if level < 0 then .b else .none
  | .unused => .none
  | .single => .none
  | .complement => .none

/-- The reference at the Timebase's counter for a compare value (R75, R76): the count lies below C while
it goes up, and at or below C from the peak on. -/
def Timebase.refOf (t : Timebase) (c : Nat) : Bool :=
  match t.active.align, t.dir with
  | .edge, _ => decide (t.counter < c)
  | .centred, .up => decide (t.counter < c)
  | .centred, .down => decide (t.counter ≤ c)

/-- The compare value and the side in force are loaded from a level (R74). -/
def Out.load (o : Out) (mode : ChanMode) (level : Int) (period : Nat) : Out :=
  { o with compare := compareOf level period, side := sideOf mode level }

/-- The reference follows the counter. At a frame end that has been reached and not yet taken it keeps its
value, since the compare value of the next frame is not loaded yet (log 3). -/
def Out.refresh (o : Out) (t : Timebase) : Out :=
  if t.frameEndDue && decide (t.run = .running) then o else { o with ref := t.refOf o.compare }

/-! ### Wanted levels -/

/-- What a pattern asks of the two outputs: both released, or each wanted active or not, with or without
the wanted-time delay of R80. -/
inductive Pattern where
  | released
  | wants (a b : Bool) (delayed : Bool)
deriving DecidableEq, Repr

/-- Both outputs wanted inactive (R82). -/
def Pattern.off : Pattern := .wants false false false

/-- The brake pattern: B wanted steadily; a SINGLE channel shows both inactive (R83). -/
def brakePattern (mode : ChanMode) : Pattern := .wants false (decide (mode ≠ .single)) false

/-- The wanted levels of a channel whose outputs follow the reference (R78). -/
def drivePattern (mode : ChanMode) (o : Out) : Pattern :=
  match mode with
  | .unused => .off
  | .single => .wants o.ref false false
  | .complement => .wants o.ref (!o.ref) true
  | .directional =>
    match o.side with
    | .a => .wants o.ref false false
    | .b => .wants false o.ref false
    | .none => .off

/-- The safe pattern of a tripped channel (R84). -/
def safePatternOf (p : SafePattern) (mode : ChanMode) : Pattern :=
  match p with
  | .inactive => .off
  | .float => .released
  | .brake => brakePattern mode

/-- The Check Engine's pattern in a step (R86). -/
def checkPattern (st : CheckStep) (mode : ChanMode) (o : Out) : Pattern :=
  match st with
  | .idle => .off
  | .aOn => .wants true false false
  | .bOn => .wants false true false
  | .pulsePos => drivePattern mode o
  | .pulseNeg => drivePattern mode o

/-- The pattern of channel `c` in its drive state, with output record `o` (R82–R86, R88). -/
def State.pattern (s : State) (c : ChanId) (o : Out) : Pattern :=
  let ch := s.chans.get c
  match s.ctl.mode with
  | .starting => .released
  | _ =>
    match s.driveState c with
    | .unused => .off
    | .idle => .off
    | .blocked => .off
    | .driving => drivePattern ch.mode o
    | .ramping => drivePattern ch.mode o
    | .braked => brakePattern ch.mode
    | .tripped => safePatternOf ch.cfg.safe ch.mode
    | .checking =>
      match s.check.position with
      | some p => checkPattern p.step ch.mode o
      | none => .off

/-! ### Pins and dead-time -/

/-- The pin drive right after its wanted level changed, before anything is made active: an output not
wanted leaves ACTIVE without delay (R79). -/
def PinDrive.drop (p : PinDrive) (wanted : Bool) : PinDrive :=
  match p with
  | .active => if wanted then .active else .inactive
  | .inactive => .inactive
  | .released => .inactive

/-- The partner guard (R79): the partner is not ACTIVE and its off-time has reached the dead-time. -/
def guardAllows (partner : PinDrive) (off dead : Nat) : Bool :=
  decide (partner ≠ .active) && decide (dead ≤ off)

/-- The wanted-time counter keeps counting only in COMPLEMENT mode and while wanted (R80). -/
def keepWanted (mode : ChanMode) (wanted : Bool) (t : Nat) : Nat :=
  if wanted && decide (mode = .complement) then t else 0

/-- Output A may become ACTIVE now (R79, R80). -/
def Out.mayRiseA (o : Out) (dead : Nat) (delayed : Bool) : Bool :=
  o.wantA && guardAllows o.pinB o.offB dead && (!delayed || decide (dead ≤ o.wtA))

/-- Output B may become ACTIVE now (R79, R80). -/
def Out.mayRiseB (o : Out) (dead : Nat) (delayed : Bool) : Bool :=
  o.wantB && guardAllows o.pinA o.offA dead && (!delayed || decide (dead ≤ o.wtB))

/-- Output A becomes ACTIVE if it may. -/
def Out.riseA (o : Out) (dead : Nat) (delayed : Bool) : Out :=
  if o.mayRiseA dead delayed then { o with pinA := .active, offA := 0 } else o

/-- Output B becomes ACTIVE if it may. -/
def Out.riseB (o : Out) (dead : Nat) (delayed : Bool) : Out :=
  if o.mayRiseB dead delayed then { o with pinB := .active, offB := 0 } else o

/-- A pattern is taken as far as it needs no wait: outputs not wanted leave ACTIVE at once, released
outputs are released (R79, R84). The wanted levels and wanted-time counters of released outputs are inactive and 0,
as R88 says of reset; for the safe pattern FLOAT the spec gives none (DESIGN CHOICE, log 29). -/
def Out.take (o : Out) (mode : ChanMode) (p : Pattern) : Out :=
  match p with
  | .released =>
    { o with wantA := false, wantB := false, wtA := 0, wtB := 0, pinA := .released, pinB := .released }
  | .wants a b _ =>
    { o with wantA := a, wantB := b, wtA := keepWanted mode a o.wtA, wtB := keepWanted mode b o.wtB,
             pinA := o.pinA.drop a, pinB := o.pinB.drop b }

/-- The pattern asks for the wanted-time delay (R80). -/
def Pattern.delayed : Pattern → Bool
  | .released => false
  | .wants _ _ d => d

/-- The wanted-time delay applies to this output record's channel now. -/
def State.delayed (s : State) (c : ChanId) : Bool := (s.pattern c (s.outs.get c)).delayed

/-- The output record follows its pattern: outputs leave ACTIVE at once and become ACTIVE where the guards
allow (R79, R80). -/
def Out.follow (o : Out) (mode : ChanMode) (dead : Nat) (p : Pattern) : Out :=
  ((o.take mode p).riseA dead p.delayed).riseB dead p.delayed

/-- What an output record shows. -/
def Out.shown (o : Out) : Shown :=
  { side := o.side, ref := o.ref, wantA := o.wantA, wantB := o.wantB, wtA := o.wtA, wtB := o.wtB, offA := o.offA,
    offB := o.offB, pinA := o.pinA, pinB := o.pinB }

/-- An output record that shows `h`. -/
def Out.withShown (o : Out) (h : Shown) : Out :=
  { o with side := h.side, ref := h.ref, wantA := h.wantA, wantB := h.wantB, wtA := h.wtA, wtB := h.wtB,
           offA := h.offA, offB := h.offB, pinA := h.pinA, pinB := h.pinB }

/-- What channel `c` showed before a boundary of this drive clock follows the state of the part too, under the
reference and side it had then: outputs that the state no longer wants leave ACTIVE, and none becomes ACTIVE (DESIGN
CHOICE, log 33). -/
def State.settledPrior (s : State) (c : ChanId) (o : Out) : Option Shown :=
  o.prior.map fun h => ((o.withShown h).take (s.chans.get c).mode (s.pattern c (o.withShown h))).shown

/-- The reference and the pins of channel `c` follow the state of the part (R66, R78, R79). -/
def State.settledOut (s : State) (c : ChanId) (o : Out) : Out :=
  let ch := s.chans.get c
  let r := o.refresh s.tb
  { r.follow ch.mode ch.deadTime (s.pattern c r) with prior := s.settledPrior c o }

/-- A boundary takes the outputs on from what they showed before the first boundary of this drive clock, so that the
compare value and side of an empty frame between two boundaries are never seen at the pins (R77; log 33). -/
def Out.resume (o : Out) : Out :=
  match o.prior with
  | none => { o with prior := some o.shown }
  | some h => { o.withShown h with side := o.side }

/-- The reference and the pins of the channels selected follow the state of the part. -/
def State.settleOn (sel : ChanId → Bool) (s : State) : State :=
  { s with outs := s.outs.mapId fun c o => if sel c then s.settledOut c o else o }

/-- Every channel's reference and pins follow the state of the part. -/
def State.settle (s : State) : State := s.settleOn fun _ => true

/-- The compare values and sides of the channels selected are loaded from their levels and the active
PERIOD (R74). -/
def State.loadCompare (sel : ChanId → Bool) (s : State) : State :=
  { s with outs := s.outs.mapId fun c o =>
      if sel c then
        let ch := s.chans.get c
        o.load ch.mode ch.act.level s.tb.active.period
      else o }

/-- A counter of drive clocks goes up to 1000 (R79, R80). -/
def countGap (t : Nat) : Nat := min (t + 1) Config.maxGap

/-- One drive clock at a channel's off-time and wanted-time counters (R79, R80); what was shown before it is past. -/
def Out.clock (o : Out) (mode : ChanMode) : Out :=
  { o with offA := if o.pinA = .active then 0 else countGap o.offA
           offB := if o.pinB = .active then 0 else countGap o.offB
           wtA := if o.wantA && decide (mode = .complement) then countGap o.wtA else 0
           wtB := if o.wantB && decide (mode = .complement) then countGap o.wtB else 0
           prior := none }

/-! ### Electrical levels (R87) -/

/-- The electrical level of a pin, none for high impedance (R87). -/
def PinDrive.electrical (p : PinDrive) (pol : Polarity) : Option Level :=
  match p, pol with
  | .released, _ => none
  | .active, .activeHigh => some .high
  | .active, .activeLow => some .low
  | .inactive, .activeHigh => some .low
  | .inactive, .activeLow => some .high

/-- The electrical level of a channel's pin A or B (R87). -/
def State.pinLevel (s : State) (c : ChanId) (x : OutPin) : Option Level :=
  match x with
  | .a => (s.outs.get c).pinA.electrical (s.chans.get c).cfg.polA
  | .b => (s.outs.get c).pinB.electrical (s.chans.get c).cfg.polB

end Sys2Proof.Machine
end

