-- ==== Sys2Proof/Machine/Posting.lean ====
section
/-! DEFINITION. The Posting Queue (chapter 2): insertion and coalescing, POST, countdown and release,
removal and flow control, WITHDRAW and QUERY_QUEUE. -/

namespace Sys2Proof.Machine

/-! ### Keys and insertion -/

/-- The number of entries held (R19). -/
def State.occupancy (s : State) : Nat := s.queue.entries.length

/-- The key of an entry: channel, kind, remaining count (R20). -/
def Entry.key (e : Entry) : ChanId × Kind × Nat := (e.channel, e.setpoint.kind, e.remaining)

/-- The key a posting looks for: channel, kind, delay (R20). -/
def Posting.key (p : Posting) : ChanId × Kind × Nat := (p.channel, p.setpoint.kind, p.delay)

/-- The entry a posting creates (R18). -/
def Posting.entry (p : Posting) (o : Origin) : Entry :=
  { channel := p.channel, setpoint := p.setpoint, remaining := p.delay, origin := o }

/-- An entry after a posting with its key coalesced into it; another entry stays (R20). -/
def Entry.coalesce (p : Posting) (o : Origin) (e : Entry) : Entry :=
  if e.key = p.key then { e with setpoint := p.setpoint, origin := o } else e

/-- An entry with the posting's key is held. -/
def PostingQueue.holdsKey (q : PostingQueue) (p : Posting) : Bool :=
  q.entries.any fun e => decide (e.key = p.key)

/-- A posting is inserted where there is room for it: it coalesces into the entry with its key, or is
appended with the HOLD test (R20, R25, R30). -/
def State.insert (o : Origin) (p : Posting) (s : State) : State :=
  if s.queue.holdsKey p then
    { s with queue := { s.queue with entries := s.queue.entries.map (Entry.coalesce p o) } }
  else
    State.holdAfterAppend { s with queue := { s.queue with entries := s.queue.entries ++ [p.entry o] } }

/-! ### Removal and release -/

/-- One removal: every entry selected leaves, the rest close up, and the HOLD test is made (R19, R31). -/
def State.removeEntries (sel : Entry → Bool) (s : State) : State :=
  State.holdAfterRemoval
    { s with queue := { s.queue with entries := s.queue.entries.filter fun e => !sel e } }

/-- How many entries are selected. -/
def State.countEntries (sel : Entry → Bool) (s : State) : Nat := (s.queue.entries.filter sel).length

/-- The entries due: remaining count 0 (R26). -/
def State.dueEntries (s : State) : List Entry := s.queue.entries.filter fun e => decide (e.remaining = 0)

/-- The countdown of a release boundary: due entries leave, the others are lowered by 1, and the HOLD test is
made once (R26, R27). -/
def State.countdown (s : State) : State :=
  State.holdAfterRemoval
    { s with queue := { s.queue with
        entries := (s.queue.entries.filter fun e => decide (e.remaining ≠ 0)).map fun e =>
          { e with remaining := e.remaining - 1 } } }

/-! ### POST (R21–R25) -/

/-- The checks of every record of a batch in body order: the postings, or the result, the record's index and
the number of its first failing check (R22, R23). -/
def State.checkRecords (s : State) : Nat → List PostRec → Except (Result × Nat × Nat) (List Posting)
  | _, [] => .ok []
  | i, r :: rs =>
    match s.checkRecord r with
    | .error (res, n) => .error (res, i, n)
    | .ok p =>
      match s.checkRecords (i + 1) rs with
      | .error e => .error e
      | .ok ps => .ok (p :: ps)

/-- The new entries a batch needs, counted against a trial set of keys (R24). -/
def placesNeeded : List (ChanId × Kind × Nat) → List Posting → Nat
  | _, [] => 0
  | trial, p :: ps =>
    if trial.contains p.key then placesNeeded trial ps else 1 + placesNeeded (p.key :: trial) ps

/-- The keys of the entries held. -/
def State.keys (s : State) : List (ChanId × Kind × Nat) := s.queue.entries.map Entry.key

/-- The records of an accepted batch are applied in body order: one disposition byte for each, APPENDED 0 or
COALESCED 1, and the state (R25, R196). -/
def State.insertAll (o : Origin) : List Posting → State → List Byte × State
  | [], s => ([], s)
  | p :: ps, s =>
    let d := boolByte (s.queue.holdsKey p)
    let rest := State.insertAll o ps (s.insert o p)
    (d :: rest.1, rest.2)

/-- POST at the Posting Queue (R21–R25). -/
def State.takePost (body : List Byte) (s : State) : Answer :=
  match s.checkRecords 0 (postRecords body) with
  | .error (res, i, n) => .refuse res [natByte i, natByte n] s
  | .ok ps =>
    let need := placesNeeded s.keys ps
    if Config.queueCapacity - s.occupancy < need then
      .refuse .queueFull [natByte s.occupancy, natByte need] s
    else
      let r := s.insertAll .host ps
      .ok (r.1 ++ [natByte r.2.occupancy] ++ wordBytes s.tb.bnum) r.2

/-! ### WITHDRAW (R34) -/

/-- The set of kinds of a WITHDRAW body holds a kind (R195). -/
def inKinds (kinds : Byte) (k : Kind) : Bool := kinds.getLsbD k.code

/-- The entry is of channel `c` and of a kind in the set. -/
def withdraws (c : ChanId) (kinds : Byte) (e : Entry) : Bool :=
  decide (e.channel = c) && inKinds kinds e.setpoint.kind

/-- WITHDRAW at the Posting Queue (R34). -/
def State.takeWithdraw (body : List Byte) (s : State) : Answer :=
  let kinds := byteAt body 1
  match chanOf (byteAt body 0) with
  | none => .refuse .badArg [] s
  | some c =>
    if !s.used c then .refuse .badArg [] s
    else if kinds = 0 ∨ 16 ≤ kinds.toNat then .refuse .badArg [] s
    else
      let s' := s.removeEntries (withdraws c kinds)
      .ok [natByte (s.countEntries (withdraws c kinds)), natByte s'.occupancy] s'

/-! ### QUERY_QUEUE (R36) -/

/-- The bytes of one returned entry: position; channel, kind and origin; value; extra; remaining count
(R197; log 15). -/
def Entry.bytes (pos : Nat) (e : Entry) : List Byte :=
  [natByte pos, natByte (e.channel.val + 16 * e.setpoint.kind.code + 64 * e.origin.code)]
  ++ e.setpoint.valueBytes ++ e.setpoint.extraBytes ++ natHalf e.remaining

/-- The bytes of consecutive entries, the first at position `pos`. -/
def entriesBytes : Nat → List Entry → List Byte
  | _, [] => []
  | pos, e :: es => e.bytes pos ++ entriesBytes (pos + 1) es

/-- QUERY_QUEUE at the Posting Queue (R36). -/
def State.takeQueryQueue (body : List Byte) (s : State) : Answer :=
  let start := (byteAt body 0).toNat
  if 31 < start then .refuse .badArg [] s
  else
    let shown := (s.queue.entries.drop start).take Config.queryEntries
    .ok ([natByte s.occupancy, boolByte s.queue.hold, natByte s.queue.holdAt, natByte s.queue.resumeAt]
      ++ wordBytes s.tb.bnum ++ [natByte shown.length] ++ entriesBytes start shown) s

end Sys2Proof.Machine
end

