-- ==== Sys2Proof/Machine/Channels.lean ====
section
/-! DEFINITION. The Channel Unit (chapter 3): clamping and released entries, ramps, the active set's
resets, end-stop actions, configuration, the projected set, CONFIG_WRITE, CONFIG_READ and
QUERY_CHANNEL. -/

namespace Sys2Proof.Machine

/-! ### The active set -/

/-- A value clamped to a range (R54). -/
def clampTo (lo hi v : Int) : Int := if v < lo then lo else if hi < v then hi else v

/-- The effective default clamp low of a channel (R54). -/
def Channel.defaultLo (ch : Channel) : Int := if ch.mode = .directional then ch.cfg.defLo else 0

/-- The active set that START and LAYOUT acceptance give: OFF, level 0, no ramp, effective default clamps
(R46, R71). -/
def Channel.startSet (ch : Channel) : ActiveSet :=
  { drive := .off, level := 0, lo := ch.defaultLo, hi := ch.cfg.defHi, ramp := none }

/-- The channel with its start active set and its clamped flag clear (R46, R71). -/
def Channel.restart (ch : Channel) : Channel := { ch with act := ch.startSet, clamped := false }

/-- The reset of an active set at STOP and at the clearing of a trip latch: OFF, level 0, no ramp, clamps kept
(R69, R72). -/
def ActiveSet.stopped (a : ActiveSet) : ActiveSet := { a with drive := .off, level := 0, ramp := none }

/-- The channel with its active set reset, clamps and clamped flag kept (R69, R72). -/
def Channel.halt (ch : Channel) : Channel := { ch with act := ch.act.stopped }

/-- A setpoint applied to an active set (R58–R60). -/
def ActiveSet.apply (a : ActiveSet) (sp : Setpoint) : ActiveSet :=
  match sp with
  | .level v => { a with level := clampTo a.lo a.hi v, ramp := none }
  | .ramp t st => { a with ramp := some { target := clampTo a.lo a.hi t, step := st } }
  | .drive d => { a with drive := d }
  | .clamp lo hi =>
    { a with lo := lo, hi := hi, level := clampTo lo hi a.level,
             ramp := a.ramp.map fun r => { r with target := clampTo lo hi r.target } }

/-- Applying a setpoint changes a value by clamping (R55). -/
def ActiveSet.clampsOn (a : ActiveSet) (sp : Setpoint) : Bool :=
  match sp with
  | .level v => decide (clampTo a.lo a.hi v ≠ v)
  | .ramp t _ => decide (clampTo a.lo a.hi t ≠ t)
  | .drive _ => false
  | .clamp lo hi =>
    decide (clampTo lo hi a.level ≠ a.level)
    || (match a.ramp with
        | some r => decide (clampTo lo hi r.target ≠ r.target)
        | none => false)

/-- A released entry applied to its channel (R55, R57). -/
def Channel.release (ch : Channel) (e : Entry) : Channel :=
  { ch with act := ch.act.apply e.setpoint, clamped := ch.clamped || ch.act.clampsOn e.setpoint }

/-- The entries released at a boundary are applied to the channels they name, in the order of the list
(R27, R57). -/
def State.applyReleased (released : List Entry) (s : State) : State :=
  { s with chans := s.chans.mapId fun c ch =>
      (released.filter fun e => decide (e.channel = c)).foldl Channel.release ch }

/-! ### Ramps (R61, R62) -/

/-- The level after one step of a ramp: toward the target by the step or by the distance, whichever is
smaller (R62). -/
def Ramp.move (r : Ramp) (level : Int) : Int :=
  if (r.target - level).natAbs ≤ r.step then r.target
  else if level < r.target then level + r.step else level - r.step

/-- One ramp step; the ramp is removed when the level reaches the target (R62). -/
def ActiveSet.step (a : ActiveSet) : ActiveSet :=
  match a.ramp with
  | none => a
  | some r =>
    { a with level := r.move a.level, ramp := if r.move a.level = r.target then none else some r }

/-- A ramp step would complete the ramp (R62). -/
def ActiveSet.completes (a : ActiveSet) : Bool :=
  match a.ramp with
  | none => false
  | some r => decide (r.move a.level = r.target)

/-- Channel `c` takes a ramp step at this boundary: it was RAMPING just before, and it has a ramp and
commanded drive ON after the released entries (R61). -/
def State.steps (before s : State) (c : ChanId) : Bool :=
  decide (before.driveState c = .ramping)
  && (s.chans.get c).act.ramp.isSome && decide ((s.chans.get c).act.drive = .on)

/-- The channels whose ramps complete at this boundary (R62). -/
def State.rampsDone (before s : State) : Half :=
  chanMask fun c => State.steps before s c && (s.chans.get c).act.completes

/-- The ramp steps of a boundary (R61, R62). -/
def State.rampSteps (before s : State) : State :=
  { s with chans := s.chans.mapId fun c ch =>
      if State.steps before s c then { ch with act := ch.act.step } else ch }

/-! ### End-stop action (R68) -/

/-- The commanded drive of an end-stop action. -/
def EndStop.drive : EndStop → Drive
  | .off => .off
  | .brake => .brake

/-- The end-stop action on a channel that drives: commanded drive OFF or BRAKE, no ramp (R68). -/
def Channel.endStopped (ch : Channel) : Channel :=
  { ch with act := { ch.act with drive := ch.cfg.endStop.drive, ramp := none } }

/-- An end-stop order for channel `c` (R68, R100). -/
def State.endStop (c : ChanId) (s : State) : State :=
  if (s.driveState c).drives then
    State.settleOn (fun d => decide (d = c))
      { s with chans := s.chans.set c (s.chans.get c).endStopped }
  else s

/-! ### Configuration (R49–R52) -/

/-- A channel adopts its pending configuration, if it has one (R51). -/
def Channel.adopt (ch : Channel) : Channel :=
  match ch.pendCfg with
  | none => ch
  | some g => { ch with cfg := g, pendCfg := none }

/-- Adopting would change the accumulator mode (R51, R130). -/
def Channel.changesAccMode (ch : Channel) : Bool :=
  match ch.pendCfg with
  | none => false
  | some g => decide (g.accMode ≠ ch.cfg.accMode)

/-- Every channel adopts its pending configuration; a change of accumulator mode clears the accumulator
(R51, R52, R130). -/
def State.adoptConfigs (s : State) : State :=
  { s with
    chans := s.chans.mapId fun _ ch => ch.adopt
    accs := s.accs.mapId fun c a => if (s.chans.get c).changesAccMode then .cleared else a }

/-- A configuration is written into the active configuration of channel `c` at once (R49, R130). -/
def State.writeConfig (c : ChanId) (g : ChanCfg) (s : State) : State :=
  let ch := s.chans.get c
  State.settleOn (fun d => decide (d = c))
    { s with
      chans := s.chans.set c { ch with cfg := g }
      accs := if g.accMode = ch.cfg.accMode then s.accs else s.accs.set c .cleared }

/-- A configuration is written into the pending configuration of channel `c` (R50). -/
def State.stageConfig (c : ChanId) (g : ChanCfg) (s : State) : State :=
  { s with chans := s.chans.set c { s.chans.get c with pendCfg := some g } }

/-- CONFIG_WRITE at the Channel Unit (R48–R50). The BNUM of an ACTIVE reply is sent as 0 (log 14). -/
def State.takeConfigWrite (body : List Byte) (s : State) : Answer :=
  match configAt body with
  | .error n => .refuse .badArg [natByte n] s
  | .ok (c, g) =>
    if s.ctl.mode = .run then .ok (1 :: wordBytes s.tb.bnum) (s.stageConfig c g)
    else .ok (0 :: wordBytes 0) (s.writeConfig c g)

/-- CONFIG_READ at the Channel Unit (R53). -/
def State.takeConfigRead (body : List Byte) (s : State) : Answer :=
  match chanOf (byteAt body 0) with
  | none => .refuse .badArg [] s
  | some c =>
    let ch := s.chans.get c
    let pend :=
      match ch.pendCfg with
      | some g => 1 :: g.bytes
      | none => List.replicate 19 0
    .ok (natByte c.val :: ch.cfg.bytes ++ pend) s

/-! ### The projected set (R37) -/

/-- An entry put into a list sorted by remaining count, before those with a larger one. -/
def insertByRemaining (e : Entry) : List Entry → List Entry
  | [] => [e]
  | f :: fs => if e.remaining ≤ f.remaining then e :: f :: fs else f :: insertByRemaining e fs

/-- Entries in ascending remaining count, and in queue order where equal (R37). -/
def sortByRemaining : List Entry → List Entry
  | [] => []
  | e :: es => insertByRemaining e (sortByRemaining es)

/-- The pending entries of channel `c`, in queue order. -/
def State.entriesOf (s : State) (c : ChanId) : List Entry :=
  s.queue.entries.filter fun e => decide (e.channel = c)

/-- A ramp taken as complete (R37). -/
def ActiveSet.completed (a : ActiveSet) : ActiveSet :=
  match a.ramp with
  | none => a
  | some r => { a with level := r.target, ramp := none }

/-- The projected set of channel `c` (R37). -/
def State.projected (s : State) (c : ChanId) : ActiveSet :=
  ((sortByRemaining (s.entriesOf c)).foldl (fun a e => a.apply e.setpoint) (s.chans.get c).act).completed

/-! ### QUERY_CHANNEL (R56, R125) -/

/-- The projected part of a QUERY_CHANNEL reply, zeros where it was not asked for (R193, R196). -/
def State.projectedBytes (s : State) (c : ChanId) (asked : Bool) : List Byte :=
  if asked then
    let a := s.projected c
    [1, natByte a.drive.code] ++ intHalf a.level ++ intHalf a.lo ++ intHalf a.hi
      ++ [natByte (s.entriesOf c).length]
  else List.replicate 9 0

/-- The target and step of a ramp, zeros where there is none (R193). -/
def rampBytes : Option Ramp → List Byte
  | some r => intHalf r.target ++ natHalf r.step
  | none => natHalf 0 ++ natHalf 0

/-- The fields of a QUERY_CHANNEL reply, from offset 2 (R196). -/
def State.channelBytes (s : State) (c : ChanId) (asked : Bool) : List Byte :=
  let ch := s.chans.get c
  let t := s.trips.get c
  let a := s.accs.get c
  let m := ch.cfg.accMode
  [natByte c.val, natByte ch.mode.code, natByte (s.driveState c).code, natByte ch.act.drive.code]
  ++ intHalf ch.act.level ++ intHalf ch.act.lo ++ intHalf ch.act.hi ++ rampBytes ch.act.ramp
  ++ [flagsByte [ch.act.ramp.isSome, ch.clamped, t.latch, ch.pendCfg.isSome, (s.senses.get c).filtered.bit],
      t.cause.setWidth 8, natByte m.code]
  ++ wordBytes a.value ++ [a.reportedCount m, a.flags m] ++ s.projectedBytes c asked

/-- The clamped flag of channel `c` is cleared (R55, R56). -/
def State.clearClamped (c : ChanId) (s : State) : State :=
  { s with chans := s.chans.set c { s.chans.get c with clamped := false } }

/-- QUERY_CHANNEL at the Channel Unit (R56): the clamped flag is reported and then cleared. -/
def State.takeQueryChannel (body : List Byte) (s : State) : Answer :=
  let flags := byteAt body 1
  match chanOf (byteAt body 0) with
  | none => .refuse .badArg [] s
  | some c =>
    if 1 < flags.toNat then .refuse .badArg [] s
    else .ok (s.channelBytes c (flags.getLsbD 0)) (s.clearClamped c)

end Sys2Proof.Machine
end

