-- ==== Sys2Proof/Machine/Sequence.lean ====
section
/-! DEFINITION. The Sequence Unit (chapter 8): conditions and evaluation, entering a line state, events, the
HOME pin, and the requests TABLE_WRITE, TABLE_READ, SEQ_ARM, SEQ_DISARM, SEQ_HOME and TRIGGER. -/

namespace Sys2Proof.Machine

/-! ### Events (R143) -/

/-- RAMP_DONE and ACCUM events offered as part of a boundary's work: held by a RUNNING unit, discarded by
another (R143). -/
def SeqUnit.hold (u : SeqUnit) (rampDone accum : Half) : SeqUnit :=
  if u.unit = .running then
    { u with held := { u.held with rampDone := u.held.rampDone ||| rampDone,
                                   accum := u.held.accum ||| accum } }
  else u

/-- A SENSE_EDGE event: latched by a RUNNING unit, discarded by another (R143). -/
def SeqUnit.senseEdge (u : SeqUnit) (c : ChanId) : SeqUnit :=
  if u.unit = .running then
    { u with latches := { u.latches with senseEdge := u.latches.senseEdge ||| oneChan c } }
  else u

/-! ### Conditions (R134, R135) -/

/-- The line state's record is defined (R133, R199). -/
def SeqUnit.isDefined (u : SeqUnit) (l : LineId) : Bool := decide ((u.table.get l).defined ≠ 0)

/-- The DWELL condition: the current state's dwell limit is not 0 and the dwell counter is at or above it
(R135). -/
def SeqUnit.dwellReached (u : SeqUnit) : Bool :=
  match u.current with
  | none => false
  | some l =>
    let limit := (u.table.get l).dwell.toNat
    decide (limit ≠ 0) && decide (limit ≤ u.dwell)

/-- A condition source read with its index (R135). -/
def State.sourceTrue (s : State) (source : Nat) (index : Nat) : Bool :=
  match source with
  | 1 => s.sampler.cond.getLsbD index
  | 2 => if h : index < 4 then (s.ils.get ⟨index, h⟩).active else false
  | 3 => if h : index < 16 then (s.senses.get ⟨index, h⟩).filtered.bit else false
  | 4 => s.seq.dwellReached
  | 5 => s.queue.entries.isEmpty
  | 6 => s.seq.latches.rampDone.getLsbD index
  | 7 => s.seq.latches.accum.getLsbD index
  | 8 => s.seq.latches.senseEdge.getLsbD index
  | 9 => s.seq.latches.trigger.getLsbD index
  | 10 => true
  | _ => false

/-- A slot is empty when its condition source is NONE (R134). -/
def Slot.isEmpty (t : Slot) : Bool := decide (t.source = 0)

/-- A slot's condition holds (R134). -/
def State.slotHolds (s : State) (t : Slot) : Bool :=
  !t.isEmpty && (s.sourceTrue t.source.toNat t.index.toNat != decide (t.negate ≠ 0))

/-- The target of the first slot that holds: own slots in order, then any-state slots in order, passing over
those whose target is the current state (R146). -/
def State.winner (s : State) (cur : LineId) : Option LineId :=
  match (s.seq.table.get cur).slots.data.find? s.slotHolds with
  | some t => lineOf t.target
  | none =>
    match s.seq.anySlots.data.find? fun t => s.slotHolds t && decide (lineOf t.target ≠ some cur) with
    | some t => lineOf t.target
    | none => none

/-! ### Entering a line state (R148) -/

/-- One dropped entry posting at the entry of state `l`: the drop counter rises and SEQ_DROP is offered
(R149). -/
def State.dropPosting (l : LineId) (s : State) : State :=
  let n := min (s.seq.drops + 1) 255
  State.offer (.seqDrop l n) { s with seq := { s.seq with drops := n } }

/-- One entry posting at insertion: it is dropped for a tripped channel, coalesces, is appended, or is
dropped for want of room (R42). `true` says that it was placed. A record that does not pass SEQ_ARM's checks
is dropped; no armed table holds one (log 22). -/
def State.placePosting (l : LineId) (r : PostRec) (s : State) : Bool × State :=
  match s.checkEntryPosting r with
  | .error _ => (false, s.dropPosting l)
  | .ok p =>
    if s.latched p.channel then (false, s.dropPosting l)
    else if s.queue.holdsKey p || decide (s.occupancy < Config.queueCapacity) then
      (true, s.insert .sequence p)
    else (false, s.dropPosting l)

/-- The entry postings of a state, in list order: the numbers placed and dropped, and the state (R42). -/
def State.placePostings (l : LineId) : List PostRec → State → (Nat × Nat) × State
  | [], s => ((0, 0), s)
  | r :: rs, s =>
    let one := s.placePosting l r
    let rest := State.placePostings l rs one.2
    (if one.1 then (rest.1.1 + 1, rest.1.2) else (rest.1.1, rest.1.2 + 1), rest.2)

/-- The entry postings a record uses (R133, R136). -/
def StateRec.entryPostings (r : StateRec) : List PostRec := r.postings.data.take r.count.toNat

/-- The Sequence Unit's own part of an entry: current state, dwell, gate mask, status outputs, and the
clearing of events where the entry is made outside an evaluation (R148 steps 1–5). -/
def SeqUnit.enter (u : SeqUnit) (l : LineId) (cause : EntryCause) : SeqUnit :=
  let r := u.table.get l
  { u with
    current := some l, dwell := 0, gate := r.gate, status := r.status
    latches := if cause = .slot then u.latches else .empty
    held := if cause = .slot then u.held else .empty }

/-- A line state is entered (R148); the pins are settled by the caller. The numbers of entry postings placed
and dropped, and the state. -/
def State.enterLine (l : LineId) (cause : EntryCause) (s : State) : (Nat × Nat) × State :=
  let left := s.seq.current
  let posts := (s.seq.table.get l).entryPostings
  let r := State.placePostings l posts { s with seq := s.seq.enter l cause }
  (r.1, r.2.offer (.transition left l cause s.tb.bnum))

/-- The pins of the channels whose admission differs between two states follow (R70). -/
def State.settleGate (before s : State) : State :=
  s.settleOn fun c => decide (before.admits c ≠ s.admits c)

/-- A line state is entered outside a boundary: the channels whose admission changes are derived anew at
once (R70, R148). -/
def State.enterOutside (l : LineId) (cause : EntryCause) (s : State) : (Nat × Nat) × State :=
  let r := s.enterLine l cause
  (r.1, State.settleGate s r.2)

/-! ### Boundaries (R145, R146) -/

/-- The dwell counter rises at a release boundary while the unit is RUNNING or HELD (R145). -/
def SeqUnit.countDwell (u : SeqUnit) : SeqUnit :=
  if u.unit = .disabled then u else { u with dwell := min (u.dwell + 1) 65535 }

/-- After an evaluation every latch is cleared and the held events set theirs (R146). -/
def SeqUnit.turnEvents (u : SeqUnit) : SeqUnit := { u with latches := u.held, held := .empty }

/-- One evaluation of a RUNNING unit (R146). -/
def State.evaluate (s : State) : State :=
  if s.seq.unit = .running then
    let s :=
      match s.seq.current with
      | none => s
      | some cur =>
        match s.winner cur with
        | some l => (s.enterLine l .slot).2
        | none => s
    { s with seq := s.seq.turnEvents }
  else s

/-! ### Disabling and the HOME pin -/

/-- The unit becomes DISABLED; the table and the drop counter are kept (R138, R141, R142). -/
def SeqUnit.disable (u : SeqUnit) : SeqUnit :=
  { u with unit := .disabled, home := none, current := none, dwell := 0, latches := .empty, held := .empty,
           gate := 0xFFFF, status := 0 }

/-- HOME goes LOW: a RUNNING unit enters the home state and becomes HELD (R151). -/
def State.homeLow (s : State) : State :=
  if s.seq.unit = .running then
    match s.seq.home with
    | none => s
    | some l =>
      let s := (s.enterOutside l .homePin).2
      { s with seq := { s.seq with unit := .held } }
  else s

/-- HOME goes HIGH: a HELD unit becomes RUNNING without a second entry (R152). -/
def State.homeHigh (s : State) : State :=
  if s.seq.unit = .held then { s with seq := { s.seq with unit := .running } } else s

/-! ### TABLE_WRITE and TABLE_READ (R136, R137) -/

/-- The first slot of a list that a test finds, by number. -/
def firstSlot (bad : Slot → Bool) (slots : List Slot) : Option Nat :=
  slots.findIdx? bad

/-- Check 4 of R136: the condition source is not one of the ten or NONE. -/
def Slot.badSource (t : Slot) : Bool := decide (10 < t.source.toNat)

/-- Check 5 of R136: a non-empty slot's target is above 9. -/
def Slot.badTarget (t : Slot) : Bool := !t.isEmpty && decide (9 < t.target.toNat)

/-- The slots a section carries, in slot order. -/
def sectionSlots (body : List Byte) : List Slot :=
  if byteAt body 0 = 0 then (stateRecAt body).slots.data else (anySlotsAt body).data

/-- The first failing check of a TABLE_WRITE body and the slot it concerns (R136). -/
def tableFault (body : List Byte) : Option (Nat × Nat) :=
  let sec := (byteAt body 0).toNat
  if 1 < sec then some (1, 0)
  else if sec = 0 ∧ 9 < (byteAt body 1).toNat then some (2, 0)
  else if sec = 0 ∧ 4 < (byteAt body 8).toNat then some (3, 0)
  else
    match firstSlot Slot.badSource (sectionSlots body) with
    | some k => some (4, k)
    | none =>
      match firstSlot Slot.badTarget (sectionSlots body) with
      | some k => some (5, k)
      | none => none

/-- A section replaces its part of the table (R136). -/
def SeqUnit.writeSection (u : SeqUnit) (body : List Byte) : SeqUnit :=
  if byteAt body 0 = 0 then
    match lineOf (byteAt body 1) with
    | some l => { u with table := u.table.set l (stateRecAt body) }
    | none => u
  else { u with anySlots := anySlotsAt body }

/-- TABLE_WRITE at the Sequence Unit (R136). -/
def State.takeTableWrite (body : List Byte) (s : State) : Answer :=
  if s.seq.unit ≠ .disabled then .refuse .refusedState [] s
  else
    match tableFault body with
    | some (n, k) => .refuse .badArg [natByte n, natByte k] s
    | none => .ok [] { s with seq := s.seq.writeSection body }

/-- TABLE_READ at the Sequence Unit (R137). -/
def State.takeTableRead (body : List Byte) (s : State) : Answer :=
  match (byteAt body 0).toNat with
  | 0 =>
    match lineOf (byteAt body 1) with
    | some l => .ok (StateRec.bytes l (s.seq.table.get l)) s
    | none => .refuse .badArg [] s
  | 1 => .ok (anySectionBytes s.seq.anySlots) s
  | _ => .refuse .badArg [] s

/-! ### SEQ_ARM (R139, R140) -/

/-- The source is a level source, which alone may be negated (R135, R139). -/
def Slot.isLevel (t : Slot) : Bool := decide (1 ≤ t.source.toNat) && decide (t.source.toNat ≤ 5)

/-- The largest index of a condition source (R135). -/
def sourceIndexMax (source : Nat) : Nat :=
  match source with
  | 1 => 5
  | 2 => 3
  | 3 => 15
  | 6 => 15
  | 7 => 15
  | 8 => 15
  | 9 => 3
  | _ => 0

/-- The fault of one slot at arming: UNDEFINED_TARGET 1, NEGATED_EVENT 2, INDEX_RANGE 3 (R139, R197). -/
def SeqUnit.slotFault (u : SeqUnit) (t : Slot) : Option Nat :=
  if t.isEmpty then none
  else if !(match lineOf t.target with
            | some l => u.isDefined l
            | none => false) then some 1
  else if t.negate ≠ 0 ∧ !t.isLevel then some 2
  else if sourceIndexMax t.source.toNat < t.index.toNat then some 3
  else none

/-- The fault of one entry posting at arming: POSTING_CHANNEL 4, POSTING_VALUE 5 (R139, R197). -/
def State.postingFault (s : State) (r : PostRec) : Option Nat :=
  match s.checkEntryPosting r with
  | .ok _ => none
  | .error false => some 4
  | .error true => some 5

/-- The first item of a list at fault: its number and its fault. -/
def firstFault {α : Type} (f : α → Option Nat) : Nat → List α → Option (Nat × Nat)
  | _, [] => none
  | n, x :: xs =>
    match f x with
    | some k => some (n, k)
    | none => firstFault f (n + 1) xs

/-- The first fault of a defined state's record: item (SLOT 1, POSTING 2), item number, fault (R139). -/
def State.recordFault (s : State) (r : StateRec) : Option (Nat × Nat × Nat) :=
  match firstFault s.seq.slotFault 0 r.slots.data with
  | some (n, k) => some (1, n, k)
  | none =>
    match firstFault s.postingFault 0 r.entryPostings with
    | some (n, k) => some (2, n, k)
    | none => none

/-- The first fault among the defined states, with its place (R139). -/
def State.statesFault (s : State) : List LineId → Option (Nat × Nat × Nat × Nat)
  | [] => none
  | l :: ls =>
    match if s.seq.isDefined l then s.recordFault (s.seq.table.get l) else none with
    | some (item, n, k) => some (l.val, item, n, k)
    | none => s.statesFault ls

/-- The first fault SEQ_ARM finds: place, item, item number, fault (R139, R197). -/
def State.armFault (s : State) (home : LineId) : Option (Nat × Nat × Nat × Nat) :=
  if !s.seq.isDefined home then some (10, 0, 0, 0)
  else
    match s.statesFault (List.finRange 10) with
    | some f => some f
    | none =>
      match firstFault s.seq.slotFault 0 s.seq.anySlots.data with
      | some (n, k) => some (11, 1, n, k)
      | none => none

/-- An accepted SEQ_ARM: the home state is entered with cause ARM, and the unit is RUNNING, or HELD where the
HOME pin is LOW (R140). -/
def State.arm (home : LineId) (s : State) : (Nat × Nat) × State :=
  let s1 := { s with seq := { s.seq with unit := .running, home := some home, latches := .empty,
                                         held := .empty } }
  let r := s1.enterOutside home .arm
  if s.home.filtered = .low then (r.1, { r.2 with seq := { r.2.seq with unit := .held } }) else r

/-- SEQ_ARM at the Sequence Unit (R139, R140). -/
def State.takeSeqArm (body : List Byte) (s : State) : Answer :=
  if s.seq.unit ≠ .disabled then .refuse .refusedState [] s
  else
    match lineOf (byteAt body 0) with
    | none => .refuse .badArg [] s
    | some home =>
      match s.armFault home with
      | some (place, item, n, k) =>
        .refuse .badTable [natByte place, natByte item, natByte n, natByte k] s
      | none =>
        let r := s.arm home
        .ok [natByte home.val, natByte r.2.seq.unit.code, natByte r.1.1, natByte r.1.2] r.2

/-! ### SEQ_DISARM, SEQ_HOME, TRIGGER (R141, R144, R153) -/

/-- SEQ_DISARM at the Sequence Unit (R141). -/
def State.takeSeqDisarm (_body : List Byte) (s : State) : Answer :=
  let old := [natByte s.seq.unit.code]
  if s.seq.unit = .disabled then .ok old s
  else .ok old (State.settleGate s { s with seq := s.seq.disable })

/-- SEQ_HOME at the Sequence Unit (R153). -/
def State.takeSeqHome (_body : List Byte) (s : State) : Answer :=
  if s.seq.unit ≠ .running then .refuse .refusedState [] s
  else
    match s.seq.home with
    | none => .refuse .refusedState [] s
    | some l =>
      let r := s.enterOutside l .seqHome
      .ok [natByte r.1.1, natByte r.1.2] r.2

/-- TRIGGER at the Sequence Unit (R144). -/
def State.takeTrigger (body : List Byte) (s : State) : Answer :=
  let t := (byteAt body 0).toNat
  if s.seq.unit ≠ .running then .refuse .refusedState [] s
  else if 3 < t then .refuse .badArg [] s
  else
    .ok [boolByte (s.seq.latches.trigger.getLsbD t)]
      { s with seq := { s.seq with latches :=
          { s.seq.latches with trigger := s.seq.latches.trigger ||| (1#4 <<< t) } } }

end Sys2Proof.Machine
end

