-- ==== Sys2Proof/Machine/Accumulators.lean ====
section
/-! DEFINITION. The Accumulator Unit (chapter 7): additions, range handling, threshold tests, clearing, and
CLEAR (ACCUM). -/

namespace Sys2Proof.Machine

/-! ### One addition (R119–R128) -/

/-- What an addition adds: the level, or its absolute value in MAGNITUDE (R119). -/
def AccMode.amount (m : AccMode) (level : Int) : Int :=
  match m with
  | .magnitude => level.natAbs
  | .wrap => level
  | .saturate => level

/-- The largest value of the range (R121–R123). -/
def AccMode.top (m : AccMode) : Int :=
  match m with
  | .magnitude => 4294967295
  | .wrap => 2147483647
  | .saturate => 2147483647

/-- The smallest value of the range (R121–R123). -/
def AccMode.bottom (m : AccMode) : Int :=
  match m with
  | .magnitude => 0
  | .wrap => -2147483648
  | .saturate => -2147483648

/-- The overflow count raised, held at 127 (R121). -/
def raiseSigned (c : Byte) : Byte := if c.toInt < 127 then c + 1 else c

/-- The overflow count lowered, held at −128 (R121). -/
def lowerSigned (c : Byte) : Byte := if -128 < c.toInt then c - 1 else c

/-- The carry count raised, held at 255 (R123). -/
def raiseUnsigned (c : Byte) : Byte := if c.toNat < 255 then c + 1 else c

/-- The count after a wrap at the top (R121, R123). -/
def AccMode.countUp (m : AccMode) (c : Byte) : Byte :=
  match m with
  | .wrap => raiseSigned c
  | .saturate => c
  | .magnitude => raiseUnsigned c

/-- The true sum of an addition (R121–R123). -/
def Accum.sum (a : Accum) (m : AccMode) (level : Int) : Int := m.read a.value + m.amount level

/-- The addition with its range handling, before the threshold tests (R121–R123). -/
def Accum.ranged (a : Accum) (m : AccMode) (level : Int) : Accum :=
  let sum := a.sum m level
  if m.top < sum then
    match m with
    | .saturate => { a with value := BitVec.ofInt 32 m.top, sat := true }
    | .wrap => { a with value := BitVec.ofInt 32 sum, count := m.countUp a.count }
    | .magnitude => { a with value := BitVec.ofInt 32 sum, count := m.countUp a.count }
  else if sum < m.bottom then
    match m with
    | .saturate => { a with value := BitVec.ofInt 32 m.bottom, sat := true }
    | .wrap => { a with value := BitVec.ofInt 32 sum, count := lowerSigned a.count }
    | .magnitude => a
  else { a with value := BitVec.ofInt 32 sum }

/-- The addition offers an ACCUM occurrence: at every wrap, and when SAT goes from clear to set (R124). -/
def Accum.overflows (a : Accum) (m : AccMode) (level : Int) : Bool :=
  let sum := a.sum m level
  (decide (m.top < sum) || decide (sum < m.bottom)) && !(decide (m = .saturate) && a.sat)

/-- A value lies below the threshold, read under the mode (R126). -/
def AccMode.below (m : AccMode) (value threshold : Word) : Bool := decide (m.read value < m.read threshold)

/-- The addition is an upward crossing (R127). -/
def Accum.crosses (a : Accum) (m : AccMode) (threshold : Word) (level : Int) : Bool :=
  a.armed && m.below a.value threshold && !m.below (a.ranged m level).value threshold

/-- The whole addition: range handling, crossing test, re-arm test (R127). -/
def Accum.add (a : Accum) (m : AccMode) (threshold : Word) (level : Int) : Accum :=
  let r := a.ranged m level
  { r with armed := (a.armed && !a.crosses m threshold level) || m.below r.value threshold }

/-! ### The additions of a boundary -/

/-- Channel `c` gets an addition: it is used and was DRIVING or RAMPING just before the boundary (R119). -/
def State.adds (before : State) (c : ChanId) : Bool := (before.driveState c).drives

/-- The channel's accumulator after the boundary's addition, under the mode and threshold in force before the
boundary (R119). -/
def State.addition (before : State) (c : ChanId) (a : Accum) : Accum :=
  let ch := before.chans.get c
  if before.adds c then a.add ch.cfg.accMode ch.cfg.threshold ch.act.level else a

/-- The addition of channel `c` offers an ACCUM occurrence (R124). -/
def State.accOverflows (before : State) (c : ChanId) : Bool :=
  let ch := before.chans.get c
  before.adds c && (before.accs.get c).overflows ch.cfg.accMode ch.act.level

/-- The addition of channel `c` reports a crossing (R127). -/
def State.accCrosses (before : State) (c : ChanId) : Bool :=
  let ch := before.chans.get c
  before.adds c && (before.accs.get c).crosses ch.cfg.accMode ch.cfg.threshold ch.act.level

/-- The occurrences of one channel's addition: ACCUM in the range handling, then CHANNEL_EVENT (R124). -/
def State.offerAddition (before : State) (s : State) (c : ChanId) : State :=
  State.offerIf (before.accCrosses c) (.channelEvent (oneChan c))
    (State.offerIf (before.accOverflows c) (.accum (oneChan c)) s)

/-- Every addition of a boundary, channels in ascending order (R119, R127; log 21). -/
def State.accumulate (before s : State) : State :=
  allChans.foldl before.offerAddition
    { s with
      accs := s.accs.mapId before.addition
      seq := s.seq.hold 0 (chanMask before.accCrosses) }

/-! ### Clearing (R129) -/

/-- The accumulators of the channels in a mask are cleared (R129). -/
def State.clearAccums (mask : Half) (s : State) : State :=
  { s with accs := s.accs.mapId fun c a => if mask.getLsbD c.val then .cleared else a }

/-- CLEAR (ACCUM) at the Accumulator Unit (R129). -/
def State.takeClearAccum (mask : Half) (s : State) : Answer := .ok (halfBytes mask) (s.clearAccums mask)

end Sys2Proof.Machine
end

