-- ==== Sys2Proof/Machine/Interlocks.lean ====
section
/-! DEFINITION. The Interlock Unit (chapter 6): trips, the AUTO test, the clearing of latches, and
CLEAR (TRIPS). -/

namespace Sys2Proof.Machine

/-! ### Trips (R107) -/

/-- A trip by interlock `i`: the latch is set and the interlock joins the cause set (R107). -/
def Trip.add (t : Trip) (i : IlId) : Trip := { latch := true, cause := t.cause ||| oneIl i }

/-- The used members of interlock `i` (R109). -/
def State.memberMask (s : State) (i : IlId) : Half := chanMask (s.member i)

/-- The latches after a trip by interlock `i`: every used member's is set (R107 step 1). -/
def State.setLatches (i : IlId) (s : State) : State :=
  { s with trips := s.trips.mapId fun c t => if s.member i c then t.add i else t }

/-- The used members of interlock `i` trip: latches, flush, TRIP occurrence (R38, R107, R109); the safe
patterns are taken when the caller settles the pins. Nothing happens where there is no used member. Where the flush
clears HOLD, its FLOW reaches the Notice Queue before TRIP (DESIGN CHOICE, log 34: R107 lists the two without an order,
and R31 makes the HOLD test after the removal). -/
def State.tripMembers (i : IlId) (s : State) : State :=
  if s.memberMask i = 0 then s
  else
    let flushed := fun e : Entry => s.member i e.channel
    State.offer (.trip i (s.memberMask i) (s.countEntries flushed))
      ((s.setLatches i).removeEntries flushed)

/-! ### The two tests (R111) -/

/-- Every interlock in the channel's cause set has rearm mode AUTO. -/
def State.causesAuto (s : State) (c : ChanId) : Bool :=
  allIls.all fun i => !(s.trips.get c).cause.getLsbD i.val || decide ((s.ils.get i).rearm = .auto)

/-- The channel is eligible for clearing (R111). -/
def State.clearable (s : State) (c : ChanId) : Bool := s.latched c && !s.guarded c

/-- The channel is used and eligible for AUTO rearm (R111). -/
def State.rearmable (s : State) (c : ChanId) : Bool := s.used c && s.clearable c && s.causesAuto c

/-! ### Clearing latches (R112) -/

/-- The latches of the channels selected clear: cause sets emptied, active sets reset, compare values loaded
(R74, R112); the pins are settled by the caller. -/
def State.clearLatches (sel : ChanId → Bool) (s : State) : State :=
  State.loadCompare sel
    { s with
      trips := s.trips.mapId fun c t => if sel c then .reset else t
      chans := s.chans.mapId fun c ch => if sel c then ch.halt else ch }

/-- The AUTO test is applied to every used channel and the eligible latches clear (R111, R113); the pins are
settled by the caller. -/
def State.autoTest (s : State) : State := s.clearLatches s.rearmable

/-- The AUTO test with the pins of the cleared channels INACTIVE at once (R112, R113). -/
def State.rearm (s : State) : State := s.autoTest.settleOn s.rearmable

/-! ### CLEAR (TRIPS) (R114) -/

/-- CLEAR (TRIPS) clears channel `c`: it is in the mask and eligible for clearing (R114). -/
def State.clears (s : State) (mask : Half) (c : ChanId) : Bool := mask.getLsbD c.val && s.clearable c

/-- CLEAR (TRIPS) at the Interlock Unit (R114): the cleared and the still-tripped masks. -/
def State.takeClearTrips (mask : Half) (s : State) : Answer :=
  let s' := (s.clearLatches (s.clears mask)).settleOn (s.clears mask)
  let still := mask &&& s'.tripMask
  { result := if still = 0 then .ok else .ilActive
    fields := halfBytes (chanMask (s.clears mask)) ++ halfBytes still
    state := s' }

end Sys2Proof.Machine
end

