-- ==== Sys2Proof/Machine/CheckEngine.lean ====
section
/-! DEFINITION. The Check Engine (chapter 9): the checks of a CHECK body, visits and steps, failures,
completion and abort, and the requests CHECK, STOP_CHECK and CHECK_RESULT. -/

namespace Sys2Proof.Machine

/-! ### The CHECK body (R156) -/

/-- The first channel of a mask that is not used. -/
def State.firstUnused (s : State) (mask : Half) : Option ChanId :=
  allChans.find? fun c => mask.getLsbD c.val && !s.used c

/-- The parameters of a CHECK body, or the number of the first failing check and the lowest channel at fault
(R156, R197). -/
def State.checkParams (s : State) (body : List Byte) : Except (Nat × Nat) CheckParams :=
  let mask := halfAt body 0
  let level := (halfAt body 6).toNat
  let settle := (byteAt body 4).toNat
  let pulse := (byteAt body 5).toNat
  if mask = 0 then .error (1, 0)
  else
    match s.firstUnused mask with
    | some c => .error (2, c.val)
    | none =>
      match Passes.ofCode (byteAt body 2).toNat with
      | none => .error (3, 0)
      | some passes =>
        match VisitOrder.ofCode (byteAt body 3).toNat with
        | none => .error (4, 0)
        | some order =>
          if settle = 0 then .error (5, 0)
          else if pulse = 0 then .error (6, 0)
          else if level = 0 ∨ 10000 < level then .error (7, 0)
          else
            .ok { mask := mask, passes := passes, order := order, settle := settle, pulse := pulse,
                  level := level }

/-! ### Visits and steps (R158) -/

/-- The passes a check runs, in order. -/
def Passes.list : Passes → List Pass
  | .static => [.static]
  | .pulse => [.pulse]
  | .both => [.static, .pulse]

/-- The places of the visiting order whose channels are in the mask (R158). -/
def CheckParams.places (q : CheckParams) : List Nat :=
  (List.range 16).filter fun k => q.mask.getLsbD (visitChannel q.order k).val

/-- Every visit of a check, in order: pass and place (R158). -/
def CheckParams.visits (q : CheckParams) : List (Pass × Nat) :=
  q.passes.list.flatMap fun p => q.places.map fun k => (p, k)

/-- The steps of a visit (R158). -/
def stepsOf (p : Pass) (mode : ChanMode) : List CheckStep :=
  match p, mode with
  | _, .unused => []
  | .static, .single => [.idle, .aOn]
  | .static, .complement => [.idle, .aOn, .bOn]
  | .static, .directional => [.idle, .aOn, .bOn]
  | .pulse, .single => [.pulsePos]
  | .pulse, .complement => [.pulsePos]
  | .pulse, .directional => [.pulsePos, .pulseNeg]

/-- The step after a step of a visit. -/
def stepAfter (st : CheckStep) (steps : List CheckStep) : Option CheckStep :=
  ((steps.dropWhile fun x => decide (x ≠ st)).drop 1).head?

/-- How many frame boundaries a step of a pass lasts (R158). -/
def CheckParams.stepFrames (q : CheckParams) (p : Pass) : Nat :=
  match p with
  | .static => q.settle
  | .pulse => q.pulse

/-- The frames one visit takes: none for a tripped channel (R157). -/
def State.visitFrames (s : State) (q : CheckParams) (v : Pass × Nat) : Nat :=
  let c := visitChannel q.order v.2
  if s.latched c then 0 else (stepsOf v.1 (s.chans.get c).mode).length * q.stepFrames v.1

/-- The planned frames (R157). -/
def State.plannedFrames (s : State) (q : CheckParams) : Nat := (q.visits.map (s.visitFrames q)).sum

/-- The step is a step of the PULSE pass. -/
def CheckStep.isPulse : CheckStep → Bool
  | .pulsePos => true
  | .pulseNeg => true
  | _ => false

/-- The signed level of a PULSE step (R160). -/
def CheckParams.pulseLevel (q : CheckParams) (st : CheckStep) : Int :=
  match st with
  | .pulseNeg => -(q.level : Int)
  | _ => q.level

/-! ### Failures (R161, R162) -/

/-- A failure is detected: counted, its channel marked, and recorded while the log has room (R162). -/
def CheckEngine.fail (k : CheckEngine) (f : Failure) : CheckEngine :=
  { k with
    failures := min (k.failures + 1) 65535
    failed := k.failed ||| oneChan f.channel
    log := if k.log.length < Config.logCapacity then k.log ++ [f] else k.log }

/-- The record of a channel skipped at its turn (R161). -/
def CheckEngine.skipRecord (k : CheckEngine) (p : Pass) (c : ChanId) : Failure :=
  { pass := p, channel := c, step := .skipped, expected := 0, observed := 0, index := k.frameIndex }

/-- The expectation of a STATIC step (R159). -/
def ChanCfg.expectation (g : ChanCfg) (st : CheckStep) : Level :=
  match st with
  | .aOn => g.expA
  | .bOn => g.expB
  | _ => g.expIdle

/-- The failure that the test of an ending step finds (R159, R160). -/
def State.stepFailure (s : State) (q : CheckParams) (p : Position) : Option Failure :=
  let c := visitChannel q.order p.place
  let index := s.check.frameIndex
  if p.step.isPulse then
    if s.check.edges < q.pulse then
      some { pass := p.pass, channel := c, step := .step p.step, expected := q.pulse,
             observed := s.check.edges, index := index }
    else none
  else
    let want := (s.chans.get c).cfg.expectation p.step
    let seen := (s.senses.get c).filtered
    if want = seen then none
    else some { pass := p.pass, channel := c, step := .step p.step, expected := want.code,
                observed := seen.code, index := index }

/-! ### Ending a check (R163, R164) -/

/-- The Timebase stops: counters at 0 counting up (R15, R16). -/
def Timebase.halt (t : Timebase) : Timebase := { t.restart with run := .stopped }

/-- The mode returns from CHECK to SETUP: the timebase stops, the AUTO test is applied and every channel takes
its SETUP pattern (R16, R90, R113). -/
def State.leaveCheck (status : CheckStatus) (reason : AbortReason) (s : State) : State :=
  let s := { s with
    check := { s.check with running := false, status := status, reason := reason, position := none }
    ctl := { s.ctl with mode := .setup }
    tb := s.tb.halt }
  State.offer (.checkDone status reason s.check.failures) s.autoTest.settle

/-- The check completes (R163). -/
def State.completeCheck (s : State) : State :=
  s.leaveCheck (if s.check.failures = 0 then .pass else .fail) .none

/-- The check is aborted (R164). -/
def State.abortCheck (reason : AbortReason) (s : State) : State := s.leaveCheck .aborted reason

/-! ### Moving through a check (R158) -/

/-- A step begins: position, and for a PULSE step the edge count and the compare value (R86, R160). -/
def State.beginStep (q : CheckParams) (p : Pass) (place : Nat) (st : CheckStep) (s : State) : State :=
  let c := visitChannel q.order place
  let pos : Position := { pass := p, place := place, step := st, frames := 0 }
  let s := { s with check := { s.check with position := some pos } }
  if st.isPulse then
    { s with
      check := { s.check with edges := 0 }
      outs := s.outs.set c
        ((s.outs.get c).load (s.chans.get c).mode (q.pulseLevel st) s.tb.active.period) }
  else s

/-- The Check Engine moves to the first of the visits left whose channel is not tripped, recording a skip for
each tripped one, and completes the check where none is left (R158, R161, R163). -/
def State.nextVisit (q : CheckParams) : List (Pass × Nat) → State → State
  | [], s => s.completeCheck
  | (p, place) :: vs, s =>
    let c := visitChannel q.order place
    if s.latched c then
      State.nextVisit q vs { s with check := s.check.fail (s.check.skipRecord p c) }
    else
      match stepsOf p (s.chans.get c).mode with
      | [] => State.nextVisit q vs s
      | st :: _ => s.beginStep q p place st

/-- The visits after a position. -/
def CheckParams.visitsAfter (q : CheckParams) (p : Position) : List (Pass × Nat) :=
  (q.visits.dropWhile fun v => decide (v ≠ (p.pass, p.place))).drop 1

/-- The boundary that ends a step: its test, then the next step, channel or completion (R158). -/
def State.endStep (q : CheckParams) (p : Position) (s : State) : State :=
  let c := visitChannel q.order p.place
  let s :=
    match s.stepFailure q p with
    | some f => { s with check := s.check.fail f }
    | none => s
  match stepAfter p.step (stepsOf p.pass (s.chans.get c).mode) with
  | some st => s.beginStep q p.pass p.place st
  | none => State.nextVisit q (q.visitsAfter p) s

/-- One frame boundary at the Check Engine (R158). -/
def State.checkBoundary (s : State) : State :=
  let s := { s with check := { s.check with frameIndex := min (s.check.frameIndex + 1) 65535 } }
  match s.check.params, s.check.position with
  | some q, some p =>
    if q.stepFrames p.pass ≤ p.frames + 1 then s.endStep q p
    else { s with check := { s.check with position := some { p with frames := p.frames + 1 } } }
  | _, _ => s

/-- The next frame boundary ends a check step (R158). -/
def State.stepEnds (s : State) : Bool :=
  match s.check.params, s.check.position with
  | some q, some p => decide (q.stepFrames p.pass ≤ p.frames + 1)
  | _, _ => false

/-! ### CHECK, STOP_CHECK, CHECK_RESULT (R157, R164, R167) -/

/-- The Timebase starts counting from 0 with the active settings (R14, R16). -/
def Timebase.go (t : Timebase) : Timebase := { t.restart with run := .running, frameEndDue := false }

/-- A CHECK is accepted (R157). -/
def State.beginCheck (q : CheckParams) (s : State) : State :=
  let s := { s with
    check := { s.check with running := true, status := .inProgress, reason := .none, params := some q,
                            frameIndex := 0, log := [], failures := 0, failed := 0 }
    ctl := { s.ctl with mode := .check }
    tb := s.tb.go }
  (State.nextVisit q q.visits s).settle

/-- CHECK at the Check Engine (R156, R157). -/
def State.takeCheck (body : List Byte) (s : State) : Answer :=
  match s.checkParams body with
  | .error (n, c) => .refuse .badArg [natByte n, natByte c] s
  | .ok q => .ok (natHalf (s.plannedFrames q)) (s.beginCheck q)

/-- STOP_CHECK at the Check Engine (R164). -/
def State.takeStopCheck (_body : List Byte) (s : State) : Answer :=
  .ok (natHalf s.check.failures ++ natHalf s.check.frameIndex) (s.abortCheck .host)

/-- The position fields of a CHECK_RESULT reply: zeros while no check runs (R167, R193; log 26). -/
def CheckEngine.positionBytes (k : CheckEngine) : List Byte :=
  match k.params, k.position with
  | some q, some p =>
    [natByte p.pass.code, natByte (visitChannel q.order p.place).val, natByte p.step.code, natByte p.frames,
     if p.step.isPulse then natByte k.edges else 0] ++ natHalf k.frameIndex
  | _, _ => List.replicate 7 0

/-- The fields of a CHECK_RESULT reply (R167, R197). -/
def CheckEngine.resultBytes (k : CheckEngine) : List Byte :=
  [boolByte k.running, natByte k.status.code, natByte k.reason.code, natByte k.reason.ilCode]
  ++ (match k.params with
      | some q => 1 :: q.bytes
      | none => List.replicate 9 0)
  ++ natHalf k.failures ++ halfBytes k.failed ++ k.positionBytes
  ++ [natByte k.log.length] ++ k.log.flatMap Failure.bytes

/-- CHECK_RESULT at the Check Engine (R167). -/
def State.takeCheckResult (_body : List Byte) (s : State) : Answer := .ok s.check.resultBytes s

end Sys2Proof.Machine
end

