-- ==== Sys2Proof/Machine/Sense.lean ====
section
/-! DEFINITION. Samples and what they cause: the filters (R92, R105), sense edges and captures (chapter 5),
interlock activations and releases (chapter 6), HOME pin events (chapter 8), and the requests QUERY_CAPTURE
and CLEAR (OVERCAPTURE). -/

namespace Sys2Proof.Machine

/-! ### The filter (R92, R105) -/

/-- The disagreement run after a sample that differs (R92). -/
def raiseRun (run : Nat) : Nat := min (run + 1) 15

/-- A sample changes a filtered level: it differs, and the raised run is at or above the filter (R92). -/
def filterAccepts (filter run : Nat) (filtered sample : Level) : Bool :=
  decide (sample ≠ filtered) && decide (filter ≤ raiseRun run)

/-- The disagreement run after a sample that does not change the filtered level (R92). -/
def nextRun (run : Nat) (filtered sample : Level) : Nat := if sample = filtered then 0 else raiseRun run

/-! ### Captures and edges (R93–R96, R100) -/

/-- The direction of an edge to a level (R93). -/
def edgeTo : Level → EdgeDir
  | .high => .rising
  | .low => .falling

/-- An edge is selected by the sense edge in force (R93). -/
def SenseEdge.selects (e : SenseEdge) (d : EdgeDir) : Bool :=
  match e, d with
  | .both, _ => true
  | .rising, .rising => true
  | .falling, .falling => true
  | .rising, .falling => false
  | .falling, .rising => false

/-- A capture record is written; the capture flag, or the overcapture flag where that was set (R95). -/
def Sense.capturing (x : Sense) (r : Capture) : Sense :=
  { x with capture := some r, captured := true, overcaptured := x.overcaptured || x.captured }

/-- The record of an edge taken now (R95). Of an edge taken just before a frame boundary that comes with it R99 gives
the BNUM and the frame index alone; the tick that makes that boundary due has returned the counter, so the record
holds frame counter 0 and direction UP (DESIGN CHOICE, log 32). -/
def State.captureNow (s : State) (d : EdgeDir) : Capture :=
  { bnum := s.tb.bnum, frameIndex := s.tb.frameIndex, counter := s.tb.counter, dir := s.tb.dir, edge := d }

/-- A capture on channel `c`: the record, the SENSE_EDGE event, the CHANNEL_EVENT occurrence (R95, R96). -/
def State.capture (c : ChanId) (d : EdgeDir) (s : State) : State :=
  State.offer (.channelEvent (oneChan c))
    { s with senses := s.senses.set c ((s.senses.get c).capturing (s.captureNow d))
             seq := s.seq.senseEdge c }

/-- The filtered level of channel `c` takes a sample (R92, R93). -/
def State.moveSense (c : ChanId) (l : Level) (s : State) : State :=
  { s with senses := s.senses.set c { s.senses.get c with filtered := l, run := 0 } }

/-- The edge of channel `c` is counted: the mode is CHECK and the channel is CHECKING in a PULSE step (R94,
R160). -/
def State.countsEdge (s : State) (c : ChanId) : Bool :=
  decide (s.check.channel = some c)
  && (match s.check.position with
      | some p => p.step.isPulse
      | none => false)

/-- One more edge counted, up to 255 (R160). -/
def State.countEdge (s : State) : State :=
  { s with check := { s.check with edges := min (s.check.edges + 1) 255 } }

/-- The edge of channel `c` in RUN: captured where the role is CAPTURE or END_STOP and the edge is selected,
and an end-stop order for END_STOP (R94). -/
def State.edgeInRun (c : ChanId) (d : EdgeDir) (s : State) : State :=
  let ch := s.chans.get c
  if ch.cfg.edge.selects d then
    match ch.role with
    | .none => s
    | .capture => s.capture c d
    | .endStop => (s.capture c d).endStop c
  else s

/-- A sense edge is taken (R93, R94). -/
def State.takeEdge (c : ChanId) (l : Level) (s : State) : State :=
  let s := s.moveSense c l
  match s.ctl.mode with
  | .run => s.edgeInRun c (edgeTo l)
  | .check => if s.countsEdge c then s.countEdge else s
  | .setup => s
  | .starting => s

/-! ### Interlock and HOME events (R105–R107, R113, R151, R152) -/

/-- The filtered level of interlock `i` takes a sample (R105). -/
def State.moveIl (i : IlId) (l : Level) (s : State) : State :=
  { s with ils := s.ils.set i { s.ils.get i with filtered := l, run := 0 } }

/-- An activation of interlock `i` (R107): its members trip, and a check in progress is aborted (R164). -/
def State.activate (i : IlId) (s : State) : State :=
  match s.ctl.mode with
  | .starting => s
  | .check => (s.tripMembers i).abortCheck (.interlock i)
  | .setup => (s.tripMembers i).settleOn (s.member i)
  | .run => (s.tripMembers i).settleOn (s.member i)

/-- A release of an interlock: the AUTO test in SETUP alone (R111, R113). -/
def State.ilRelease (s : State) : State :=
  match s.ctl.mode with
  | .setup => s.rearm
  | _ => s

/-- A change of interlock `i`'s filtered level is taken (R105). -/
def State.takeIl (i : IlId) (l : Level) (s : State) : State :=
  let s := s.moveIl i l
  if (s.ils.get i).active then s.activate i else s.ilRelease

/-- A change of HOME's filtered level is taken (R106, R151, R152). -/
def State.takeHome (l : Level) (s : State) : State :=
  let s := { s with home := { s.home with filtered := l, run := 0 } }
  match l with
  | .low => s.homeLow
  | .high => s.homeHigh

/-! ### One sample -/

/-- The events one sample can make. -/
inductive PinEvent where
  | edge (c : ChanId) (l : Level)
  | interlock (i : IlId) (l : Level)
  | home (l : Level)
deriving DecidableEq, Repr

/-- The levels of one sample. -/
structure Levels where
  s : Half
  il : BitVec 4
  home : Level
  c : BitVec 6
deriving DecidableEq, Repr

/-- The level of S input `c`. -/
def Levels.sense (v : Levels) (c : ChanId) : Level := Level.ofBool (v.s.getLsbD c.val)

/-- The level of interlock input `i`. -/
def Levels.interlock (v : Levels) (i : IlId) : Level := Level.ofBool (v.il.getLsbD i.val)

/-- The sample changes channel `c`'s filtered level (R92). -/
def State.senseChanges (s : State) (v : Levels) (c : ChanId) : Bool :=
  let x := s.senses.get c
  filterAccepts (s.chans.get c).cfg.filter x.run x.filtered (v.sense c)

/-- The sample changes interlock `i`'s filtered level (R105). -/
def State.ilChanges (s : State) (v : Levels) (i : IlId) : Bool :=
  let x := s.ils.get i
  filterAccepts x.filter x.run x.filtered (v.interlock i)

/-- The sample changes HOME's filtered level (R105). -/
def State.homeChanges (s : State) (v : Levels) : Bool :=
  filterAccepts s.home.filter s.home.run s.home.filtered v.home

/-- The events of a sample: one for each filtered level that changes. -/
def State.pinEvents (s : State) (v : Levels) : List PinEvent :=
  ((allChans.filter (s.senseChanges v)).map fun c => .edge c (v.sense c))
  ++ ((allIls.filter (s.ilChanges v)).map fun i => .interlock i (v.interlock i))
  ++ (if s.homeChanges v then [.home v.home] else [])

/-- What a sample does before its events: the sample clock and the pins as sampled, the condition inputs, the
runs of the inputs whose filtered level stays, and the start-up count (R91, R92, R105, R135, R169). The sample clock
starts anew from every sample, one that a SAMPLE command makes before its time too (DESIGN CHOICE, log 1). -/
def State.readSample (v : Levels) (s : State) : State :=
  { s with
    pins := { s.pins with s := v.s, il := v.il, home := v.home, c := v.c }
    sampler := { phase := 0, cond := v.c }
    senses := s.senses.mapId fun c x =>
      if s.senseChanges v c then x else { x with run := nextRun x.run x.filtered (v.sense c) }
    ils := s.ils.mapId fun i x =>
      if s.ilChanges v i then x else { x with run := nextRun x.run x.filtered (v.interlock i) }
    home :=
      if s.homeChanges v then s.home
      else { s.home with run := nextRun s.home.run s.home.filtered v.home }
    ctl :=
      if s.ctl.mode = .starting ∧ s.pins.resetAsserted = false then
        { s.ctl with startCount := min (s.ctl.startCount + 1) Config.startSamples }
      else s.ctl }

/-- One event of a sample is taken. -/
def State.takePin (e : PinEvent) (s : State) : State :=
  match e with
  | .edge c l => s.takeEdge c l
  | .interlock i l => s.takeIl i l
  | .home l => s.takeHome l

/-- The events of a sample are taken one by one, in an order that is free (R99, R101, R110, R113, R151;
log 6), with no other event between two of them (log 35). -/
def State.takePins : Nat → List PinEvent → State → State
  | 0, _, s => s
  | fuel + 1, es, s =>
    match es with
    | [] => s
    | _ :: _ =>
      let (k, s) := s.pick es.length
      match es[k]? with
      | none => s
      | some e => State.takePins fuel (es.eraseIdx k) (s.takePin e)

/-- One sample (R91). -/
def State.sample (v : Levels) (s : State) : State :=
  let es := s.pinEvents v
  State.takePins es.length es (s.readSample v)

/-- The levels at the pins as they last were. -/
def Pins.levels (p : Pins) : Levels := { s := p.s, il := p.il, home := p.home, c := p.c }

/-! ### QUERY_CAPTURE and CLEAR (OVERCAPTURE) (R97, R98) -/

/-- The five fields of a capture record, zeros where it is absent (R193, R197): BNUM, frame index, frame
counter, directions. -/
def captureBytes : Option Capture → List Byte
  | none => List.replicate 8 0
  | some r =>
    wordBytes r.bnum ++ [natByte r.frameIndex] ++ natHalf r.counter
      ++ [flagsByte [decide (r.dir = .down), decide (r.edge = .falling)]]

/-- QUERY_CAPTURE at the Sense Unit (R97): the capture flag is reported and then cleared. -/
def State.takeQueryCapture (body : List Byte) (s : State) : Answer :=
  match chanOf (byteAt body 0) with
  | none => .refuse .badArg [] s
  | some c =>
    let x := s.senses.get c
    .ok ([natByte (s.chans.get c).role.code,
          flagsByte [x.filtered.bit, x.capture.isSome, x.captured, x.overcaptured]] ++ captureBytes x.capture)
      { s with senses := s.senses.set c { x with captured := false } }

/-- CLEAR (OVERCAPTURE) at the Sense Unit (R98): the mask of the channels whose flag was set. -/
def State.takeClearOvercapture (mask : Half) (s : State) : Answer :=
  .ok (halfBytes (mask &&& chanMask fun c => (s.senses.get c).overcaptured))
    { s with senses := s.senses.mapId fun c x =>
        if mask.getLsbD c.val then { x with overcaptured := false } else x }

/-- The capture records and flags of every channel are cleared (R103). -/
def State.clearCaptures (s : State) : State :=
  { s with senses := s.senses.mapId fun _ x =>
      { x with capture := none, captured := false, overcaptured := false } }

end Sys2Proof.Machine
end

