-- ==== Sys2Proof/Machine/Boundaries.lean ====
section
/-! DEFINITION. The Timebase (chapter 1): ticks, frame and release boundaries with every unit's work at them,
and the requests TIMEBASE and FORCE_BOUNDARY. -/

namespace Sys2Proof.Machine

/-! ### Ticks (R1–R3) -/

/-- One tick of the frame counter. The tick that returns it to 0 makes a frame end due (R2, R3, R4). -/
def Timebase.tick (t : Timebase) : Timebase :=
  match t.active.align, t.dir with
  | .edge, _ =>
    if t.counter + 1 < t.active.period then { t with counter := t.counter + 1 }
    else { t with counter := 0, dir := .up, frameEndDue := true }
  | .centred, .up =>
    if t.counter + 1 < t.active.period then { t with counter := t.counter + 1 }
    else { t with counter := t.active.period, dir := .down }
  | .centred, .down =>
    if 1 < t.counter then { t with counter := t.counter - 1 }
    else { t with counter := 0, dir := .up, frameEndDue := true }

/-- One drive clock at the tick divider (R1). -/
def Timebase.clock (t : Timebase) : Timebase :=
  match t.run with
  | .stopped => t
  | .running =>
    if t.divider < t.active.prescale then { t with divider := t.divider + 1 }
    else { t with divider := 0 }.tick

/-! ### The Timebase at a boundary (R4, R5, R8, R12) -/

/-- A boundary in RUN is a release boundary: it is forced, or the repetition counter is 0 (R4, R12). -/
def Timebase.releases (t : Timebase) (forced : Bool) : Bool := forced || decide (t.rep = 0)

/-- The Timebase raises a release boundary: adoption, reload of the repetition counter, BNUM (R4, R5, R8). -/
def Timebase.release (t : Timebase) : Timebase :=
  { t.restart with active := t.staged, rep := t.staged.rep, bnum := t.bnum + 1 }

/-- The Timebase raises a boundary in RUN (R4, R12). -/
def Timebase.boundary (t : Timebase) (forced : Bool) : Timebase :=
  if t.releases forced then t.release else { t.restart with rep := t.rep - 1 }

/-! ### One boundary in RUN -/

/-- The Timebase's part: counters, and the BOUNDARY occurrence of a release boundary unless it is forced with
QUIET (R7). -/
def State.timebaseWork (forced quiet : Bool) (s : State) : State :=
  let t := s.tb.boundary forced
  State.offerIf (s.tb.releases forced && !(forced && quiet)) (.boundary t.bnum forced) { s with tb := t }

/-- The Channel Unit's part: adoption, released entries, ramp steps, RAMP_DONE events (R51, R57, R61, R62). -/
def State.channelWork (before : State) (release : Bool) (s : State) : State :=
  let s := if release then s.adoptConfigs.applyReleased before.dueEntries else s
  let done := State.rampsDone before s
  let s := State.rampSteps before s
  { s with seq := s.seq.hold done 0 }

/-- The Sequence Unit's part: the dwell counter, then the evaluation (R145, R146). -/
def State.sequenceWork (release : Bool) (s : State) : State :=
  State.evaluate (if release then { s with seq := s.seq.countDwell } else s)

/-- Every channel's outputs go on from what they showed before the boundaries of this drive clock (R77). -/
def State.resumeOuts (s : State) : State := { s with outs := s.outs.mapId fun _ o => o.resume }

/-- The Output Stage's part: compare values and sides are loaded for every used channel, and the pins follow
(R74, R66). -/
def State.outputWork (s : State) : State := (s.loadCompare s.used).settle

/-- One boundary in RUN with every unit's work, in the order of log 23: Timebase, countdown and release,
additions, channels, AUTO rearm, sequence, outputs; then the free order of the new notices (R188). The outputs go on
from what they showed before the boundaries of this drive clock (R77; log 33). -/
def State.runBoundary (forced quiet : Bool) (s : State) : State :=
  let release := s.tb.releases forced
  let s1 := s.resumeOuts.timebaseWork forced quiet
  let s2 := if release then s1.countdown else s1
  let s3 := State.accumulate s s2
  let s4 := State.channelWork s release s3
  let s5 := if release then s4.autoTest else s4
  let s6 := s5.sequenceWork release
  s6.outputWork.settleOrder s.link.notices.length

/-! ### Frame ends -/

/-- A frame boundary in CHECK: the counters restart, the Check Engine takes it, the pins follow (R16, R158). -/
def State.checkFrame (s : State) : State :=
  (State.checkBoundary { s with tb := s.tb.restart }).settle

/-- A frame end is taken: a boundary while the run state is RUNNING, else nothing (R4). -/
def State.takeFrameEnd (s : State) : State :=
  let s := { s with tb := { s.tb with frameEndDue := false } }
  match s.tb.run, s.ctl.mode with
  | .running, .run => s.runBoundary false false
  | .running, .check => s.checkFrame
  | _, _ => s

/-! ### TIMEBASE (R9–R11) -/

/-- The mode has dead-time that check 5 reads (R9). -/
def ChanMode.hasDeadTime : ChanMode → Bool
  | .complement => true
  | .directional => true
  | .unused => false
  | .single => false

/-- D: the largest dead-time among the COMPLEMENT and DIRECTIONAL channels (R9). -/
def State.largestDead (s : State) : Nat :=
  s.chans.data.foldl (fun d ch => if ch.mode.hasDeadTime then max d ch.deadTime else d) 0

/-- The settings of a TIMEBASE body, or the name of the first failing check: PERIOD 1, REPEAT 2, ALIGN 3,
PRODUCT 4 (R9, R197). -/
def State.checkTimebase (s : State) (body : List Byte) : Except Nat TbSettings :=
  let prescale := (byteAt body 0).toNat
  let period := (halfAt body 1).toNat
  let rep := (byteAt body 3).toNat
  if period < 16 then .error 1
  else if 127 < rep then .error 2
  else
    match Align.ofCode (byteAt body 4).toNat with
    | none => .error 3
    | some align =>
      if s.ctl.mode = .run ∧ align ≠ s.tb.active.align then .error 3
      else if period * (prescale + 1) < 4 * s.largestDead then .error 4
      else .ok { prescale := prescale, period := period, rep := rep, align := align }

/-- Settings written in SETUP: both copies, the repetition counter, timebase_ok (R10). -/
def State.setTimebase (g : TbSettings) (s : State) : State :=
  { s with
    tb := { s.tb.restart with active := g, staged := g, rep := g.rep }
    ctl := { s.ctl with timebaseOk := true } }

/-- Settings written in RUN: the staged copy alone (R11). -/
def State.stageTimebase (g : TbSettings) (s : State) : State := { s with tb := { s.tb with staged := g } }

/-- TIMEBASE at the Timebase (R9–R11). -/
def State.takeTimebase (body : List Byte) (s : State) : Answer :=
  match s.checkTimebase body with
  | .error n => .refuse .badArg [natByte n] s
  | .ok g =>
    let s' := if s.ctl.mode = .run then s.stageTimebase g else s.setTimebase g
    .ok (s'.tb.active.bytes ++ s'.tb.staged.bytes) s'

/-! ### FORCE_BOUNDARY (R12) -/

/-- FORCE_BOUNDARY at the Timebase (R12, R13). -/
def State.takeForceBoundary (body : List Byte) (s : State) : Answer :=
  let flags := byteAt body 0
  if 1 < flags.toNat then .refuse .badArg [] s
  else
    let s' := s.runBoundary true (flags.getLsbD 0)
    .ok (wordBytes s'.tb.bnum) s'

end Sys2Proof.Machine
end

