-- ==== Sys2Proof/Machine/Modes.lean ====
section
/-! DEFINITION. The Mode Controller (chapter 10): the end of STARTING, LAYOUT and LAYOUT_READ, START, STOP and
LOCK. -/

namespace Sys2Proof.Machine

/-! ### Start-up (R169, R170) -/

/-- The rate code of the straps: 2 when RATE1 is HIGH plus 1 when RATE0 is HIGH (R200). -/
def rateCode (rate1 rate0 : Level) : BitVec 2 :=
  match rate1, rate0 with
  | .low, .low => 0
  | .low, .high => 1
  | .high, .low => 2
  | .high, .high => 3

/-- STARTING can end now: the 32nd sample has been taken and the RESET pin is not asserted (R169). -/
def State.startingOver (s : State) : Bool :=
  decide (s.ctl.mode = .starting) && decide (s.ctl.startCount = Config.startSamples)
  && !s.pins.resetAsserted

/-- The end of STARTING: straps read, mode SETUP, pins INACTIVE, receiver hunting, READY offered (R89, R169,
R170). -/
def State.endStarting (rate1 rate0 : Level) (s : State) : State :=
  let rate := rateCode rate1 rate0
  let s := { s with
    pins := { s.pins with rate1 := rate1, rate0 := rate0 }
    ctl := { s.ctl with mode := .setup }
    link := { s.link with rate := some rate, rx := .hunting } }
  State.offer (.ready s.ctl.cause rate) s.settle

/-! ### LAYOUT (R46, R104, R116, R172) -/

/-- A channel takes its new layout and its active set is reset (R46). -/
def Channel.layOut (ch : Channel) (l : ChanLayout) : Channel :=
  Channel.restart { ch with mode := l.mode, deadTime := l.deadTime, member := l.member, role := l.role }

/-- The channels take their new layouts (R46; R172 step 1). -/
def State.layChannels (body : List Byte) (s : State) : State :=
  { s with chans := s.chans.mapId fun c ch =>
      match chanLayoutAt body c with
      | some l => ch.layOut l
      | none => ch }

/-- An interlock takes its new settings; filtered level and run are kept (R104, R105). -/
def Interlock.configure (i : Interlock) (g : IlSettings) : Interlock :=
  { i with polarity := g.polarity, filter := g.filter, rearm := g.rearm }

/-- The interlocks and the HOME filter take their new settings (R104; R172 step 2). -/
def State.layInterlocks (body : List Byte) (s : State) : State :=
  { s with
    ils := s.ils.mapId fun i x =>
      match ilSettingsAt body i with
      | some g => x.configure g
      | none => x
    home := { s.home with filter := (byteAt body 44).toNat } }

/-- The latches of channels made UNUSED clear (R116 step 1). -/
def State.dropUnusedTrips (s : State) : State :=
  { s with trips := s.trips.mapId fun c t => if s.used c then t else .reset }

/-- The members of every ACTIVE interlock trip, interlocks in ascending order (R116 step 4; log 21). -/
def State.tripActive (s : State) : State :=
  allIls.foldl (fun s i => if (s.ils.get i).active then s.tripMembers i else s) s

/-- An accepted LAYOUT (R172): steps 1 to 5, then the compare values and the pins (R74, R89). -/
def State.layOut (body : List Byte) (s : State) : State :=
  let s := ((s.layChannels body).layInterlocks body).clearCaptures
  let s := (s.dropUnusedTrips.tripActive).autoTest
  let s := { s with ctl := { s.ctl with layoutOk := true, timebaseOk := false } }
  (s.loadCompare fun _ => true).settle

/-- LAYOUT at the Mode Controller (R172). -/
def State.takeLayout (body : List Byte) (s : State) : Answer :=
  match layoutFault body with
  | some n => .refuse .badArg [natByte n] s
  | none =>
    let s' := s.layOut body
    .ok (halfBytes s'.tripMask) s'

/-- LAYOUT_READ at the Mode Controller (R173). -/
def State.takeLayoutRead (_body : List Byte) (s : State) : Answer :=
  .ok (s.layoutBytes ++ [boolByte s.ctl.layoutOk]) s

/-! ### START (R174) -/

/-- The thresholds of a START body pass (R32). -/
def thresholdsOk (holdAt resumeAt : Nat) : Bool :=
  decide (2 ≤ holdAt) && decide (holdAt ≤ 32) && decide (resumeAt < holdAt)

/-- An accepted START (R14, R32, R71, R103, R131, R174). -/
def State.beginRun (holdAt resumeAt : Nat) (s : State) : State :=
  let s := { s with
    queue := { entries := [], hold := false, holdAt := holdAt, resumeAt := resumeAt }
    tb := { s.tb.go with bnum := 0, rep := s.tb.active.rep }
    chans := s.chans.mapId fun _ ch => if ch.used then ch.restart else ch
    ctl := { s.ctl with mode := .run } }
  let s := s.clearCaptures.clearAccums 0xFFFF
  (s.loadCompare s.used).settle

/-- START at the Mode Controller (R32, R174). -/
def State.takeStart (body : List Byte) (s : State) : Answer :=
  let holdAt := (byteAt body 0).toNat
  let resumeAt := (byteAt body 1).toNat
  if thresholdsOk holdAt resumeAt then .ok [] (s.beginRun holdAt resumeAt)
  else .refuse .badArg [] s

/-! ### STOP (R175) -/

/-- The Timebase at STOP: staged settings adopted, counters 0, repetition counter reloaded, BNUM kept (R15). -/
def Timebase.stop (t : Timebase) : Timebase :=
  { t.halt with active := t.staged, rep := t.staged.rep }

/-- An accepted STOP, in the order of R175. -/
def State.endRun (s : State) : State :=
  let s := { s with seq := s.seq.disable }
  let s := s.removeEntries fun _ => true
  let s := s.adoptConfigs
  let s := { s with
    chans := s.chans.mapId fun _ ch => if ch.used then ch.halt else ch
    tb := s.tb.stop
    ctl := { s.ctl with mode := .setup } }
  let s := s.autoTest
  (s.loadCompare s.used).settle

/-- STOP at the Mode Controller (R175). -/
def State.takeStop (_body : List Byte) (s : State) : Answer :=
  let s' := s.endRun
  .ok (wordBytes s'.tb.bnum) s'

/-! ### LOCK (R177) -/

/-- The lock flags named are set, the others stay (R177). -/
def ModeCtl.lock (m : ModeCtl) (flags : Byte) : ModeCtl :=
  { m with readLock := m.readLock || flags.getLsbD 0
           writeLockConfig := m.writeLockConfig || flags.getLsbD 1
           writeLockAll := m.writeLockAll || flags.getLsbD 2 }

/-- LOCK at the Mode Controller (R177). -/
def State.takeLock (body : List Byte) (s : State) : Answer :=
  let flags := byteAt body 0
  if 7 < flags.toNat then .refuse .badArg [] s
  else
    let s' := { s with ctl := s.ctl.lock flags }
    .ok [s'.lockByte] s'

end Sys2Proof.Machine
end

