-- ==== Sys2Proof/Machine/Link.lean ====
section
/-! DEFINITION. The Link Unit (chapter 11): the CRC, the frames' bytes, the receiver, the request buffer, the
transmitter, and the requests IDENTIFY, STATUS, NOTICES and CLEAR (COUNTERS). -/

namespace Sys2Proof.Machine

/-! ### CRC and frames (R179, R194) -/

/-- One bit of the CRC register (R179). -/
def crcBit (r : Half) (d : Bool) : Half :=
  if r.msb != d then (r <<< 1) ^^^ 0x1021#16 else r <<< 1

/-- One byte of the CRC, most significant bit first (R179). -/
def crcByte (r : Half) (b : Byte) : Half :=
  [7, 6, 5, 4, 3, 2, 1, 0].foldl (fun r i => crcBit r (b.getLsbD i)) r

/-- The CRC of a list of bytes, from 0xFFFF (R179). -/
def crcOf (bytes : List Byte) : Half := bytes.foldl crcByte 0xFFFF#16

/-- The bytes the CRC of a frame covers: LEN, KIND, TAG and the body (R179). -/
def Frame.covered (f : Frame) : List Byte := [natByte f.body.length, f.kind, f.tag] ++ f.body

/-- The bytes of a frame at the line: SYNC, the covered bytes, the CRC low byte first (R179, R194). -/
def Frame.bytes (f : Frame) : List Byte := [Config.sync] ++ f.covered ++ halfBytes (crcOf f.covered)

/-! ### The receiver (R180) -/

/-- What the end of a byte brings about beside the receiver's new state. -/
inductive RxEvent where
  | nothing
  | framingError
  | crcError
  | frame (f : Frame)
deriving DecidableEq, Repr

/-- A saturating 16-bit error counter raised. -/
def raiseCount (n : Nat) : Nat := min (n + 1) 65535

/-- The frame or the CRC error that a whole frame's bytes after SYNC make (R180). -/
def judgeFrame (bytes : List Byte) : RxEvent :=
  let len := (byteAt bytes 0).toNat
  if crcOf (bytes.take (len + 3)) = halfAt bytes (len + 3) then
    .frame { kind := byteAt bytes 1, tag := byteAt bytes 2, body := (bytes.drop 3).take len }
  else .crcError

/-- The receiver takes one byte with a good stop bit (R180). -/
def Rx.take (r : Rx) (b : Byte) : Rx × RxEvent :=
  match r with
  | .hunting => (if b = Config.sync then .inFrame [] else .hunting, .nothing)
  | .inFrame [] => if Config.maxBody < b.toNat then (.hunting, .framingError) else (.inFrame [b], .nothing)
  | .inFrame (len :: rest) =>
    let bytes := len :: rest ++ [b]
    if bytes.length = len.toNat + 5 then (.hunting, judgeFrame bytes) else (.inFrame bytes, .nothing)

/-- The next byte is the last CRC byte of the frame being received. -/
def Rx.awaitsLast : Rx → Bool
  | .hunting => false
  | .inFrame [] => false
  | .inFrame (len :: rest) => decide (rest.length + 2 = len.toNat + 5)

/-- The receiver awaits LEN. -/
def Rx.awaitsLen : Rx → Bool
  | .inFrame [] => true
  | _ => false

/-- A partial frame is discarded: a framing error is counted while IN_FRAME, nothing happens while HUNTING
(R180). -/
def Link.breakFrame (l : Link) : Link :=
  match l.rx with
  | .hunting => l
  | .inFrame _ => { l with rx := .hunting, framingErrors := raiseCount l.framingErrors }

/-! ### The request buffer (R181, R182) -/

/-- A complete frame is appended to the waiting list, or discarded as an overrun where it holds 4 (R181). -/
def Link.accept (l : Link) (f : Frame) : Link :=
  if l.waiting.length < Config.waitingCapacity then { l with waiting := l.waiting ++ [f] }
  else { l with overruns := raiseCount l.overruns, overrun := true }

/-! ### Building replies (R182 to R184) -/

/-- The KIND of a reply: the request's plus 0x80, or 0xFF for an unknown kind of 0x80 or above (R184). -/
def replyKind (kind : Byte) : Byte := if 0x80 ≤ kind.toNat then 0xFF else kind + 0x80

/-- The reply to the request in service: RESULT, the STATUS byte, the fields (R184, R194). -/
def Service.frame (v : Service) (status : Byte) : Frame :=
  { kind := replyKind v.request.kind, tag := v.request.tag, body := [v.result, status] ++ v.fields }

/-- The reply that is not built yet is built, with the STATUS byte as it stands now, and the OVERRUN flag is cleared
(R182, R184). -/
def State.build (s : State) : State :=
  match s.link.service with
  | none => s
  | some v =>
    match v.reply with
    | some _ => s
    | none =>
      { s with link := { s.link with
          overrun := false, service := some { v with reply := some (v.frame s.statusByte) } } }

/-- A request in service has a reply that is not built yet. -/
def Link.unbuilt (l : Link) : Bool :=
  match l.service with
  | some v => v.reply.isNone
  | none => false

/-- A reply that is not built yet and that the transmitter does not begin now may be built now or later, so that its
STATUS byte may show what is taken before it is sent (R33, R115, R182): a free value (log 13). -/
def State.mayBuild (s : State) : State :=
  if s.link.unbuilt then
    let (k, s) := s.pick 2
    if k = 0 then s.build else s
  else s

/-! ### The transmitter (R189, R191) -/

/-- A reply waits to be sent: a request is in service and its reply is not being sent (R181). -/
def Link.replyWaits (l : Link) : Bool :=
  match l.service, l.tx with
  | some _, .sending _ .reply => false
  | some _, _ => true
  | none, _ => false

/-- The transmitter begins the reply that waits; where it is not built yet it is built first (log 13). -/
def State.beginReply (s : State) : State :=
  let s := s.build
  match s.link.service.bind Service.reply with
  | some r => { s with link := { s.link with tx := .sending r .reply } }
  | none => s

/-- The transmitter begins the oldest notice, which leaves the Notice Queue (R189). -/
def Link.beginNotice (l : Link) : Link :=
  match l.notices with
  | n :: ns => { l with tx := .sending n.frame .notice, notices := ns }
  | [] => l

/-- A notice is begun before the reply that waits, which may be built now or later. Where it is built now, it is built
before the notice leaves the queue, so its STATUS byte counts that notice as pending; R184 and R191 do not order the
two (DESIGN CHOICE, log 13). -/
def State.noticeFirst (s : State) : State :=
  let s := s.mayBuild
  { s with link := s.link.beginNotice }

/-- After an event an IDLE transmitter begins a frame at once when one is available; where a reply and a notice became
available together, which is begun is free (R191; log 8). A reply that it does not begin may be built (log 13). -/
def State.kick (s : State) : State :=
  match s.link.tx with
  | .sending _ _ => s.mayBuild
  | .idle =>
    match s.link.replyWaits, s.link.notices with
    | false, [] => s
    | true, [] => s.beginReply
    | false, _ :: _ => { s with link := s.link.beginNotice }
    | true, _ :: _ =>
      let (k, s) := s.pick 2
      if k = 0 then s.beginReply else s.noticeFirst

/-- The transmitter has finished a frame of the given kind and chooses the next: the other kind first, IDLE
where neither waits (R191). -/
def State.choose (done : FrameClass) (s : State) : State :=
  let s := { s with link := { s.link with lastFrame := done, tx := .idle } }
  match s.link.replyWaits, s.link.notices with
  | false, [] => s
  | true, [] => s.beginReply
  | false, _ :: _ => { s with link := s.link.beginNotice }
  | true, _ :: _ =>
    match done with
    | .reply => s.noticeFirst
    | .notice => s.beginReply

/-! ### IDENTIFY, STATUS, CLEAR (COUNTERS), NOTICES (R185, R186, R190) -/

/-- IDENTIFY at the Link Unit (R185). -/
def State.takeIdentify (_body : List Byte) (s : State) : Answer :=
  .ok (halfBytes Config.vendor ++ halfBytes Config.part
    ++ [Config.revision, 16, natByte Config.queueCapacity, 10, natByte Config.transitionSlots]) s

/-- The fields of a STATUS reply (R185, R197). -/
def State.statusFields (s : State) : List Byte :=
  [natByte s.ctl.mode.code, s.statusFlags] ++ wordBytes s.tb.bnum ++ [natByte s.occupancy]
  ++ halfBytes s.tripMask ++ [s.ilStates, natByte s.seq.unit.code, lineCode s.seq.current]
  ++ natHalf s.seq.dwell ++ [natByte s.seq.drops, boolByte s.check.running]
  ++ natHalf s.link.framingErrors ++ natHalf s.link.crcErrors ++ natHalf s.link.overruns

/-- STATUS at the Link Unit (R185). -/
def State.takeStatus (_body : List Byte) (s : State) : Answer := .ok s.statusFields s

/-- The four counters at 0 (R186). -/
def State.clearCounters (s : State) : State :=
  { s with
    link := { s.link with framingErrors := 0, crcErrors := 0, overruns := 0 }
    seq := { s.seq with drops := 0 } }

/-- CLEAR (COUNTERS) at the Link Unit (R186): the four values as they stood just before. -/
def State.takeClearCounters (_mask : Half) (s : State) : Answer :=
  .ok (natHalf s.link.framingErrors ++ natHalf s.link.crcErrors ++ natHalf s.link.overruns
    ++ [natByte s.seq.drops]) s.clearCounters

/-- A notice stays under a mask: READY always (R170, R190). -/
def Notice.stays (mask : Half) (n : Notice) : Bool :=
  decide (n.occ.kind = 0) || mask.getLsbD n.occ.kind

/-- The notice mask is replaced and pending notices it excludes are removed (R190). -/
def Link.setMask (l : Link) (mask : Half) : Link :=
  { l with mask := mask, notices := l.notices.filter (Notice.stays mask) }

/-- NOTICES at the Link Unit (R190). -/
def State.takeNotices (body : List Byte) (s : State) : Answer :=
  let mask := halfAt body 0
  if mask &&& ~~~Config.maskableKinds ≠ 0 then .refuse .badArg [] s
  else .ok (halfBytes mask) { s with link := s.link.setMask mask }

end Sys2Proof.Machine
end

