-- ==== Sys2Proof/Machine/Requests.lean ====
section
/-! DEFINITION. The request decoder (R171, R183, R184, R192, R195) and the meaning of the request commands:
each is the arrival of a complete request frame at the request buffer (R181; log 10). -/

namespace Sys2Proof.Machine

/-! ### The known kinds (R192) -/

/-- The known request kinds. -/
inductive ReqKind where
  | identify
  | status
  | restart
  | layout
  | layoutRead
  | timebase
  | start
  | stop
  | configWrite
  | configRead
  | lock
  | notices
  | post
  | withdraw
  | queryChannel
  | queryQueue
  | forceBoundary
  | clear
  | queryCapture
  | tableWrite
  | tableRead
  | seqArm
  | seqDisarm
  | seqHome
  | trigger
  | check
  | stopCheck
  | checkResult
deriving DecidableEq, Repr

/-- The code of a kind (R192). -/
def ReqKind.code : ReqKind → Byte
  | .identify => 0x01
  | .status => 0x02
  | .restart => 0x03
  | .layout => 0x04
  | .layoutRead => 0x05
  | .timebase => 0x06
  | .start => 0x07
  | .stop => 0x08
  | .configWrite => 0x09
  | .configRead => 0x0A
  | .lock => 0x0B
  | .notices => 0x0C
  | .post => 0x10
  | .withdraw => 0x11
  | .queryChannel => 0x12
  | .queryQueue => 0x13
  | .forceBoundary => 0x14
  | .clear => 0x15
  | .queryCapture => 0x16
  | .tableWrite => 0x18
  | .tableRead => 0x19
  | .seqArm => 0x1A
  | .seqDisarm => 0x1B
  | .seqHome => 0x1C
  | .trigger => 0x1D
  | .check => 0x20
  | .stopCheck => 0x21
  | .checkResult => 0x22

/-- The kind with a code, if it is known (R192). -/
def ReqKind.ofCode (b : Byte) : Option ReqKind :=
  match b.toNat with
  | 0x01 => some .identify
  | 0x02 => some .status
  | 0x03 => some .restart
  | 0x04 => some .layout
  | 0x05 => some .layoutRead
  | 0x06 => some .timebase
  | 0x07 => some .start
  | 0x08 => some .stop
  | 0x09 => some .configWrite
  | 0x0A => some .configRead
  | 0x0B => some .lock
  | 0x0C => some .notices
  | 0x10 => some .post
  | 0x11 => some .withdraw
  | 0x12 => some .queryChannel
  | 0x13 => some .queryQueue
  | 0x14 => some .forceBoundary
  | 0x15 => some .clear
  | 0x16 => some .queryCapture
  | 0x18 => some .tableWrite
  | 0x19 => some .tableRead
  | 0x1A => some .seqArm
  | 0x1B => some .seqDisarm
  | 0x1C => some .seqHome
  | 0x1D => some .trigger
  | 0x20 => some .check
  | 0x21 => some .stopCheck
  | 0x22 => some .checkResult
  | _ => none

/-! ### Checks 2 to 5 of the decoder -/

/-- The body length a TABLE_WRITE's first byte allows (R195). -/
def tableLenOk (body : List Byte) : Bool :=
  match (byteAt body 0).toNat with
  | 0 => decide (body.length = 57)
  | 1 => decide (body.length = 25)
  | _ => decide (body.length = 57) || decide (body.length = 25)

/-- The body length is allowed for the kind (R195). -/
def ReqKind.lenOk (k : ReqKind) (body : List Byte) : Bool :=
  match k with
  | .identify => decide (body.length = 0)
  | .status => decide (body.length = 0)
  | .restart => decide (body.length = 0)
  | .layoutRead => decide (body.length = 0)
  | .stop => decide (body.length = 0)
  | .seqDisarm => decide (body.length = 0)
  | .seqHome => decide (body.length = 0)
  | .stopCheck => decide (body.length = 0)
  | .checkResult => decide (body.length = 0)
  | .layout => decide (body.length = 45)
  | .timebase => decide (body.length = 5)
  | .start => decide (body.length = 2)
  | .configWrite => decide (body.length = 19)
  | .configRead => decide (body.length = 1)
  | .queryCapture => decide (body.length = 1)
  | .queryQueue => decide (body.length = 1)
  | .seqArm => decide (body.length = 1)
  | .trigger => decide (body.length = 1)
  | .lock => decide (body.length = 1)
  | .notices => decide (body.length = 2)
  | .post => decide (body.length % 8 = 0) && decide (8 ≤ body.length) && decide (body.length ≤ 48)
  | .withdraw => decide (body.length = 2)
  | .queryChannel => decide (body.length = 2)
  | .forceBoundary => decide (body.length = 1)
  | .clear => decide (body.length = 3)
  | .tableWrite => tableLenOk body
  | .tableRead => decide (body.length = 2)
  | .check => decide (body.length = 8)

/-- Where the mode lets a request be taken: SETUP, RUN, CHECK (R171). -/
def inModes (setup run check : Bool) (m : OpMode) : Bool :=
  match m with
  | .starting => false
  | .setup => setup
  | .run => run
  | .check => check

/-- The mode allows the request (R171). -/
def ReqKind.modeOk (k : ReqKind) (m : OpMode) : Bool :=
  match k with
  | .identify => inModes true true true m
  | .status => inModes true true true m
  | .restart => inModes true true true m
  | .queryChannel => inModes true true true m
  | .queryQueue => inModes true true true m
  | .queryCapture => inModes true true true m
  | .checkResult => inModes true true true m
  | .layoutRead => inModes true true true m
  | .configRead => inModes true true true m
  | .tableRead => inModes true true true m
  | .layout => inModes true false false m
  | .timebase => inModes true true false m
  | .configWrite => inModes true true false m
  | .tableWrite => inModes true true false m
  | .notices => inModes true true false m
  | .lock => inModes true true false m
  | .clear => inModes true true false m
  | .start => inModes true false false m
  | .check => inModes true false false m
  | .stop => inModes false true false m
  | .post => inModes false true false m
  | .withdraw => inModes false true false m
  | .forceBoundary => inModes false true false m
  | .seqArm => inModes false true false m
  | .seqDisarm => inModes false true false m
  | .seqHome => inModes false true false m
  | .trigger => inModes false true false m
  | .stopCheck => inModes false false true m

/-- The setup order is met (R171). -/
def ReqKind.orderOk (k : ReqKind) (m : ModeCtl) : Bool :=
  match k with
  | .timebase => decide (m.mode ≠ .setup) || m.layoutOk
  | .start => m.layoutOk && m.timebaseOk
  | .check => m.timebaseOk
  | _ => true

/-- A lock flag refuses the request (R171, R177). -/
def ReqKind.locked (k : ReqKind) (m : ModeCtl) : Bool :=
  match k with
  | .layoutRead => m.readLock
  | .configRead => m.readLock
  | .tableRead => m.readLock
  | .layout => m.writeLockAll
  | .timebase => m.writeLockAll
  | .notices => m.writeLockAll
  | .lock => m.writeLockAll
  | .configWrite => m.writeLockConfig || m.writeLockAll
  | .tableWrite => m.writeLockConfig || m.writeLockAll
  | _ => false

/-! ### The owning unit's own checks and effects -/

/-- RESTART: the reply is OK and the decoder takes no further request (R176). -/
def State.takeRestart (_body : List Byte) (s : State) : Answer :=
  .ok [] { s with link := { s.link with restarting := true } }

/-- CLEAR by its sub-function: TRIPS 0, ACCUM 1, OVERCAPTURE 2, COUNTERS 3 (R186, R193). -/
def State.takeClear (body : List Byte) (s : State) : Answer :=
  let mask := halfAt body 1
  match (byteAt body 0).toNat with
  | 0 => s.takeClearTrips mask
  | 1 => s.takeClearAccum mask
  | 2 => s.takeClearOvercapture mask
  | 3 => s.takeClearCounters mask
  | _ => .refuse .badArg [] s

/-- The owning unit takes the request (R183 check 6). -/
def ReqKind.take (k : ReqKind) (body : List Byte) (s : State) : Answer :=
  match k with
  | .identify => s.takeIdentify body
  | .status => s.takeStatus body
  | .restart => s.takeRestart body
  | .layout => s.takeLayout body
  | .layoutRead => s.takeLayoutRead body
  | .timebase => s.takeTimebase body
  | .start => s.takeStart body
  | .stop => s.takeStop body
  | .configWrite => s.takeConfigWrite body
  | .configRead => s.takeConfigRead body
  | .lock => s.takeLock body
  | .notices => s.takeNotices body
  | .post => s.takePost body
  | .withdraw => s.takeWithdraw body
  | .queryChannel => s.takeQueryChannel body
  | .queryQueue => s.takeQueryQueue body
  | .forceBoundary => s.takeForceBoundary body
  | .clear => s.takeClear body
  | .queryCapture => s.takeQueryCapture body
  | .tableWrite => s.takeTableWrite body
  | .tableRead => s.takeTableRead body
  | .seqArm => s.takeSeqArm body
  | .seqDisarm => s.takeSeqDisarm body
  | .seqHome => s.takeSeqHome body
  | .trigger => s.takeTrigger body
  | .check => s.takeCheck body
  | .stopCheck => s.takeStopCheck body
  | .checkResult => s.takeCheckResult body

/-- The decoder judges a request: its checks in order, the first that fails refusing it (R183). -/
def State.judge (f : Frame) (s : State) : Answer :=
  match ReqKind.ofCode f.kind with
  | none => .refuse .badKind [] s
  | some k =>
    if !k.lenOk f.body then .refuse .badLength [] s
    else if !k.modeOk s.ctl.mode then .refuse .refusedState [] s
    else if !k.orderOk s.ctl then .refuse .order [] s
    else if k.locked s.ctl then .refuse .locked [] s
    else k.take f.body s

/-! ### Replies (R181, R182, R184) -/

/-- The reply is built within the event of taking the request: RESTART's (R176); one after whose building a flag is
cleared (R56, R97, R99); and a refusal whose STATUS byte shows the mode that refused (R171). The moment of any other is
free (log 13). -/
def Answer.builtAtOnce (a : Answer) (f : Frame) : Bool :=
  match a.result with
  | .refusedState | .order | .locked => true
  | .ok =>
    match ReqKind.ofCode f.kind with
    | some .restart | some .queryChannel | some .queryCapture => true
    | _ => false
  | _ => false

/-- A request is taken, with its effects, and is in service; its reply is built now, or after them (R182, R183;
log 13). -/
def State.answer (f : Frame) (s : State) : State :=
  let a := s.judge f
  let t := { a.state with link := { a.state.link with
    service := some { request := f, result := a.result.code, fields := a.fields, reply := none } } }
  if a.builtAtOnce f then t.build else t

/-- The decoder takes the oldest waiting request where its place is free and RESTART has not been taken (R176,
R181). -/
def State.serve (s : State) : State :=
  match s.link.service, s.link.restarting, s.link.waiting with
  | none, false, f :: fs => State.answer f { s with link := { s.link with waiting := fs } }
  | _, _, _ => s

/-- A complete frame reaches the request buffer; the decoder and the transmitter go on with it (R181, R191). -/
def State.arrive (f : Frame) (s : State) : State :=
  ({ s with link := s.link.accept f }).serve.kick

/-- A complete request frame arrives at the part; in STARTING the receiver is not running and it is lost (R169,
R170). -/
def State.deliver (kind tag : Byte) (body : List Byte) (s : State) : State :=
  if s.ctl.mode = .starting then s else s.arrive { kind := kind, tag := tag, body := body }

/-- The outcome of a request command: the state after its delivery. -/
def State.request (k : ReqKind) (tag : Byte) (body : List Byte) (s : State) :
    Host.Outcome State Fault Refusal :=
  .next (s.deliver k.code tag body)

/-! ### The request commands -/

/-- BAD_KIND: a request of an unknown kind (R183, R192). -/
def execBadKind (kind tag : Byte) (body : List Byte) (s : State) : Host.Outcome State Fault Refusal :=
  .next (s.deliver kind tag body)
/-- IDENTIFY (R185). -/
def execIdentify (tag : Byte) (body : List Byte) (s : State) : Host.Outcome State Fault Refusal :=
  s.request .identify tag body
/-- STATUS (R185). -/
def execStatus (tag : Byte) (body : List Byte) (s : State) : Host.Outcome State Fault Refusal :=
  s.request .status tag body
/-- RESTART (R176). -/
def execRestart (tag : Byte) (body : List Byte) (s : State) : Host.Outcome State Fault Refusal :=
  s.request .restart tag body
/-- LAYOUT (R172). -/
def execLayout (tag : Byte) (body : List Byte) (s : State) : Host.Outcome State Fault Refusal :=
  s.request .layout tag body
/-- LAYOUT_READ (R173). -/
def execLayoutRead (tag : Byte) (body : List Byte) (s : State) : Host.Outcome State Fault Refusal :=
  s.request .layoutRead tag body
/-- TIMEBASE (R9–R11). -/
def execTimebase (tag : Byte) (body : List Byte) (s : State) : Host.Outcome State Fault Refusal :=
  s.request .timebase tag body
/-- START (R174). -/
def execStart (tag : Byte) (body : List Byte) (s : State) : Host.Outcome State Fault Refusal :=
  s.request .start tag body
/-- STOP (R175). -/
def execStop (tag : Byte) (body : List Byte) (s : State) : Host.Outcome State Fault Refusal :=
  s.request .stop tag body
/-- CONFIG_WRITE (R48–R50). -/
def execConfigWrite (tag : Byte) (body : List Byte) (s : State) : Host.Outcome State Fault Refusal :=
  s.request .configWrite tag body
/-- CONFIG_READ (R53). -/
def execConfigRead (tag : Byte) (body : List Byte) (s : State) : Host.Outcome State Fault Refusal :=
  s.request .configRead tag body
/-- LOCK (R177). -/
def execLock (tag : Byte) (body : List Byte) (s : State) : Host.Outcome State Fault Refusal :=
  s.request .lock tag body
/-- NOTICES (R190). -/
def execNotices (tag : Byte) (body : List Byte) (s : State) : Host.Outcome State Fault Refusal :=
  s.request .notices tag body
/-- POST (R21–R25). -/
def execPost (tag : Byte) (body : List Byte) (s : State) : Host.Outcome State Fault Refusal :=
  s.request .post tag body
/-- WITHDRAW (R34). -/
def execWithdraw (tag : Byte) (body : List Byte) (s : State) : Host.Outcome State Fault Refusal :=
  s.request .withdraw tag body
/-- QUERY_CHANNEL (R56). -/
def execQueryChannel (tag : Byte) (body : List Byte) (s : State) : Host.Outcome State Fault Refusal :=
  s.request .queryChannel tag body
/-- QUERY_QUEUE (R36). -/
def execQueryQueue (tag : Byte) (body : List Byte) (s : State) : Host.Outcome State Fault Refusal :=
  s.request .queryQueue tag body
/-- FORCE_BOUNDARY (R12). -/
def execForceBoundary (tag : Byte) (body : List Byte) (s : State) : Host.Outcome State Fault Refusal :=
  s.request .forceBoundary tag body
/-- CLEAR (TRIPS) (R114): sub-function 0. -/
def execClearTrips (tag : Byte) (mask : List Byte) (s : State) : Host.Outcome State Fault Refusal :=
  s.request .clear tag (0 :: mask)
/-- CLEAR (ACCUM) (R129): sub-function 1. -/
def execClearAccum (tag : Byte) (mask : List Byte) (s : State) : Host.Outcome State Fault Refusal :=
  s.request .clear tag (1 :: mask)
/-- CLEAR (OVERCAPTURE) (R98): sub-function 2. -/
def execClearOvercapture (tag : Byte) (mask : List Byte) (s : State) : Host.Outcome State Fault Refusal :=
  s.request .clear tag (2 :: mask)
/-- CLEAR (COUNTERS) (R186): sub-function 3. -/
def execClearCounters (tag : Byte) (mask : List Byte) (s : State) : Host.Outcome State Fault Refusal :=
  s.request .clear tag (3 :: mask)
/-- QUERY_CAPTURE (R97). -/
def execQueryCapture (tag : Byte) (body : List Byte) (s : State) : Host.Outcome State Fault Refusal :=
  s.request .queryCapture tag body
/-- TABLE_WRITE (R136). -/
def execTableWrite (tag : Byte) (body : List Byte) (s : State) : Host.Outcome State Fault Refusal :=
  s.request .tableWrite tag body
/-- TABLE_READ (R137). -/
def execTableRead (tag : Byte) (body : List Byte) (s : State) : Host.Outcome State Fault Refusal :=
  s.request .tableRead tag body
/-- SEQ_ARM (R139, R140). -/
def execSeqArm (tag : Byte) (body : List Byte) (s : State) : Host.Outcome State Fault Refusal :=
  s.request .seqArm tag body
/-- SEQ_DISARM (R141). -/
def execSeqDisarm (tag : Byte) (body : List Byte) (s : State) : Host.Outcome State Fault Refusal :=
  s.request .seqDisarm tag body
/-- SEQ_HOME (R153). -/
def execSeqHome (tag : Byte) (body : List Byte) (s : State) : Host.Outcome State Fault Refusal :=
  s.request .seqHome tag body
/-- TRIGGER (R144). -/
def execTrigger (tag : Byte) (body : List Byte) (s : State) : Host.Outcome State Fault Refusal :=
  s.request .trigger tag body
/-- CHECK (R157). -/
def execCheck (tag : Byte) (body : List Byte) (s : State) : Host.Outcome State Fault Refusal :=
  s.request .check tag body
/-- STOP_CHECK (R164). -/
def execStopCheck (tag : Byte) (body : List Byte) (s : State) : Host.Outcome State Fault Refusal :=
  s.request .stopCheck tag body
/-- CHECK_RESULT (R167). -/
def execCheckResult (tag : Byte) (body : List Byte) (s : State) : Host.Outcome State Fault Refusal :=
  s.request .checkResult tag body

end Sys2Proof.Machine
end

