-- ==== Sys2Proof/Machine/Events.lean ====
section
/-! DEFINITION. The meaning of the commands that are not requests: resets, samples, the clock and what is due
by it, bytes and frames at the link; and the drive clock of an empty queue (log 2). -/

namespace Sys2Proof.Machine

/-! ### Resets and start-up (R169) -/

/-- POWER_ON: a power-on reset, reported as PIN where the RESET pin is asserted (R169, R170; log 20). -/
def execPowerOn (s : State) : Host.Outcome State Fault Refusal :=
  .next (s.takeReset (if s.pins.resetAsserted then .pin else .power))

/-- RESET_PIN: the RESET pin is asserted (R169). -/
def execResetPin (s : State) : Host.Outcome State Fault Refusal :=
  .next (State.takeReset .pin { s with pins := { s.pins with resetAsserted := true } })

/-- RESET_PIN_RELEASE: the pin is released and the 512 drive clocks of STARTING count from here (R169;
log 16). -/
def execResetPinRelease (s : State) : Host.Outcome State Fault Refusal :=
  if s.pins.resetAsserted then
    .next { s with pins := { s.pins with resetAsserted := false },
                   sampler := { s.sampler with phase := 0 } }
  else .next s

/-- STARTING ends if it is over (R169). -/
def State.endStartingEvent (rate1 rate0 : Level) (s : State) : State :=
  if s.startingOver then (s.endStarting rate1 rate0).kick else s

/-- END_OF_STARTING: at the 32nd sample (R169); without effect where STARTING is not over (log 1). -/
def execEndOfStarting (rate1 rate0 : Level) (s : State) : Host.Outcome State Fault Refusal :=
  .next (s.endStartingEvent rate1 rate0)

/-! ### Samples and frame ends -/

/-- One sample, and the notices it started go to the transmitter. Where one sample makes several events, an IDLE
transmitter begins a notice only after all of them, so that the occurrences of one kind merge into one notice (R93,
R105, R188, R191): DESIGN CHOICE, log 31. No other event is taken between two events of the sample: DESIGN CHOICE,
log 35. -/
def State.sampleEvent (v : Levels) (s : State) : State := (s.sample v).kick

/-- SAMPLE: taken at once, whatever the sample clock shows, and the sample clock counts its 16 drive clocks anew from
it (R91, R105; DESIGN CHOICE, log 1). -/
def execSample (ss : Half) (il : BitVec 4) (home : Level) (c : BitVec 6) (s : State) :
    Host.Outcome State Fault Refusal :=
  .next (s.sampleEvent { s := ss, il := il, home := home, c := c })

/-- One frame end, and the notices it started go to the transmitter. -/
def State.frameEvent (s : State) : State := s.takeFrameEnd.kick

/-- FRAME_END (R4; log 1). -/
def execFrameEnd (s : State) : Host.Outcome State Fault Refusal := .next s.frameEvent

/-- CHECK_STEP_END: the frame end that ends a check step (R158); without effect where the next frame end does
not (log 1). -/
def execCheckStepEnd (s : State) : Host.Outcome State Fault Refusal :=
  if s.ctl.mode = .check ∧ s.stepEnds = true then .next s.frameEvent else .next s

/-! ### Compare matches and expiries (R75, R79, R80) -/

/-- COMPARE_MATCH: the reference of a channel follows the counter, and its pins follow (R75, R76, R78). -/
def execCompareMatch (ch : ChanId) (s : State) : Host.Outcome State Fault Refusal :=
  match s.tb.run with
  | .running => .next (s.settleOn fun c => decide (c = ch))
  | .stopped => .next s

/-- One output of a channel becomes ACTIVE if it is wanted and may (R79, R80); a compare match due at the same
drive clock is taken first (log 25). -/
def State.riseOne (ch : ChanId) (x : OutPin) (s : State) : State :=
  let c := s.chans.get ch
  let o := (s.outs.get ch).refresh s.tb
  let p := s.pattern ch o
  let o := o.take c.mode p
  let o :=
    match x with
    | .a => o.riseA c.deadTime p.delayed
    | .b => o.riseB c.deadTime p.delayed
  { s with outs := s.outs.set ch o }

/-- DEAD_TIME_EXPIRY: the partner's off-time reaches the dead-time and a wanted output becomes ACTIVE (R79);
without effect before the time, and while a frame end is due (log 1, 3). -/
def execDeadTimeExpiry (ch : ChanId) (out : OutPin) (s : State) : Host.Outcome State Fault Refusal :=
  if s.tb.frameEndDue then .next s else .next (s.riseOne ch out)

/-- WANTED_TIME_EXPIRY: an output's wanted-time reaches the dead-time, in COMPLEMENT mode (R80); without effect
before the time, and while a frame end is due (log 1, 3). -/
def execWantedTimeExpiry (ch : ChanId) (out : OutPin) (s : State) : Host.Outcome State Fault Refusal :=
  if (s.chans.get ch).mode = .complement ∧ s.tb.frameEndDue = false then .next (s.riseOne ch out)
  else .next s

/-! ### Bytes and frames at the link (R180, R181, R191) -/

/-- What a received byte brought about at the receiver is carried out (R180, R181). -/
def State.takeRx (r : Rx × RxEvent) (s : State) : State :=
  let s := { s with link := { s.link with rx := r.1 } }
  match r.2 with
  | .nothing => s
  | .framingError => { s with link := { s.link with framingErrors := raiseCount s.link.framingErrors } }
  | .crcError => { s with link := { s.link with crcErrors := raiseCount s.link.crcErrors } }
  | .frame f => s.arrive f

/-- A byte with a good stop bit is received; in STARTING the receiver is not running (R169, R180). -/
def State.receive (b : Byte) (s : State) : State :=
  if s.ctl.mode = .starting then s else s.takeRx (s.link.rx.take b)

/-- BYTE_RECEIVED (R180). -/
def execByteReceived (b : Byte) (s : State) : Host.Outcome State Fault Refusal := .next (s.receive b)

/-- The receiver is running and a partial frame is discarded (R169, R180). -/
def State.breakRx (s : State) : State :=
  if s.ctl.mode = .starting then s else { s with link := s.link.breakFrame }

/-- FRAMING_ERROR: a LEN byte above 60 where LEN is awaited, or a byte with a bad stop bit (R180; log 19). -/
def execFramingError (cause : FramingCause) (s : State) : Host.Outcome State Fault Refusal :=
  match cause with
  | .badStop => .next s.breakRx
  | .lenAbove b =>
    if s.link.rx.awaitsLen && decide (Config.maxBody < b.toNat) then .next (s.receive b) else .next s

/-- INTER_BYTE_GAP: a gap above the limit (R180). -/
def execInterByteGap (s : State) : Host.Outcome State Fault Refusal := .next s.breakRx

/-- FRAME_COMPLETE: the last CRC byte is received (R180, R181); without effect where the frame awaits other bytes
(log 19). -/
def execFrameComplete (b : Byte) (s : State) : Host.Outcome State Fault Refusal :=
  if s.link.rx.awaitsLast then .next (s.receive b) else .next s

/-- The decoder takes the next request, then an IDLE transmitter begins a frame. -/
def State.serveThenKick (s : State) : State := s.serve.kick

/-- A reply has been sent: the request in service leaves its place, the decoder takes the next request, and the
transmitter chooses. Which of the two goes first is free where a request and a notice wait (R181, R191;
log 8). -/
def State.replySent (s : State) : State :=
  let s := { s with link := { s.link with service := none, tx := .idle, lastFrame := .reply } }
  match s.link.waiting, s.link.notices with
  | _ :: _, _ :: _ =>
    let (k, s) := s.pick 2
    if k = 0 then (s.choose .reply).serveThenKick else s.serve.choose .reply
  | _, _ => (s.choose .reply).serveThenKick

/-- FRAME_SENT: the last byte of the frame at TXD has been sent; after the RESTART reply the reset follows (R176,
R191). -/
def execFrameSent (s : State) : Host.Outcome State Fault Refusal :=
  match s.link.tx with
  | .idle => .next s
  | .sending _ .notice => .next (s.choose .notice)
  | .sending _ .reply =>
    if s.link.restarting then .next (s.takeReset .restart) else .next s.replySent

/-! ### The drive clock (R1, R79, R80, R91; log 2) -/

/-- One drive clock: every counter of drive clocks counts, and the Timebase counts towards its tick. -/
def State.driveClock (s : State) : State :=
  { s with
    outs := s.outs.mapId fun c o => o.clock (s.chans.get c).mode
    sampler := { s.sampler with phase := min (s.sampler.phase + 1) Config.samplePeriod }
    tb := s.tb.clock }

/-- A sample is due: 16 drive clocks since the last (R91). -/
def State.sampleDue (s : State) : Bool := decide (s.sampler.phase = Config.samplePeriod)

/-- A due sample is taken with the levels the pins hold (R91; log 5). -/
def State.takeSampleDue (s : State) : State := if s.sampleDue then s.sampleEvent s.pins.levels else s

/-- A due frame end is taken (R4). -/
def State.takeFrameDue (s : State) : State := if s.tb.frameEndDue then s.frameEvent else s

/-- The frame end and the sample that are due are taken; where both are, the order is free (R91, R99; log 6). The events
of the sample come all before the frame end or all after it, though the spec frees each of them against the boundary
(R93, R105, R110, R165): DESIGN CHOICE, log 35. -/
def State.takeBoth (s : State) : State :=
  if s.tb.frameEndDue && s.sampleDue then
    let (k, s) := s.pick 2
    if k = 0 then s.takeFrameDue.takeSampleDue else s.takeSampleDue.takeFrameDue
  else s.takeFrameDue.takeSampleDue

/-- Everything due is taken: frame end and sample, the end of STARTING, compare matches and expiries (log 4). -/
def State.takeDue (s : State) : State :=
  let s := s.takeBoth
  (s.endStartingEvent s.pins.rate1 s.pins.rate0).settle

/-- `n` drive clocks, each with everything that it makes due taken (log 4). -/
def State.clocks : Nat → State → State
  | 0, s => s
  | n + 1, s => State.clocks n s.driveClock.takeDue

/-- One drive clock of an empty queue, with what it makes due taken (log 2). -/
def State.idle (s : State) : State := State.clocks 1 s.takeDue

/-- TICK: what is due is taken, then come the drive clocks up to and including the one that completes a tick
(R1), each but the last with what it makes due taken on it; what the last makes due waits for the next command or
drive clock. Nothing while STOPPED (log 4). -/
def execTick (s : State) : Host.Outcome State Fault Refusal :=
  match s.tb.run with
  | .stopped => .next s
  | .running =>
    let s := s.takeDue
    .next (State.clocks (s.tb.active.prescale - s.tb.divider) s).driveClock

end Sys2Proof.Machine
end

