-- ==== Sys2Proof/Machine/Dispatch.lean ====
section
/-! DEFINITION. Which meaning each command has: one direct call for each row of the opcode table. -/

namespace Sys2Proof.Machine

/-- The effect of a command on everything but the queue of commands. -/
def exec (i : Instr) (s : State) : Host.Outcome State Fault Refusal :=
  match i with
  | .powerOn => Sys2Proof.Machine.execPowerOn s
  | .resetPin => Sys2Proof.Machine.execResetPin s
  | .resetPinRelease => Sys2Proof.Machine.execResetPinRelease s
  | .endOfStarting rate1 rate0 => Sys2Proof.Machine.execEndOfStarting rate1 rate0 s
  | .sample ss il home c => Sys2Proof.Machine.execSample ss il home c s
  | .frameEnd => Sys2Proof.Machine.execFrameEnd s
  | .checkStepEnd => Sys2Proof.Machine.execCheckStepEnd s
  | .compareMatch ch => Sys2Proof.Machine.execCompareMatch ch s
  | .deadTimeExpiry ch out => Sys2Proof.Machine.execDeadTimeExpiry ch out s
  | .wantedTimeExpiry ch out => Sys2Proof.Machine.execWantedTimeExpiry ch out s
  | .framingError cause => Sys2Proof.Machine.execFramingError cause s
  | .interByteGap => Sys2Proof.Machine.execInterByteGap s
  | .frameComplete b => Sys2Proof.Machine.execFrameComplete b s
  | .frameSent => Sys2Proof.Machine.execFrameSent s
  | .badKind kind tag body => Sys2Proof.Machine.execBadKind kind tag body s
  | .identify tag body => Sys2Proof.Machine.execIdentify tag body s
  | .status tag body => Sys2Proof.Machine.execStatus tag body s
  | .restart tag body => Sys2Proof.Machine.execRestart tag body s
  | .layout tag body => Sys2Proof.Machine.execLayout tag body s
  | .layoutRead tag body => Sys2Proof.Machine.execLayoutRead tag body s
  | .timebase tag body => Sys2Proof.Machine.execTimebase tag body s
  | .start tag body => Sys2Proof.Machine.execStart tag body s
  | .stop tag body => Sys2Proof.Machine.execStop tag body s
  | .configWrite tag body => Sys2Proof.Machine.execConfigWrite tag body s
  | .configRead tag body => Sys2Proof.Machine.execConfigRead tag body s
  | .lock tag body => Sys2Proof.Machine.execLock tag body s
  | .notices tag body => Sys2Proof.Machine.execNotices tag body s
  | .post tag body => Sys2Proof.Machine.execPost tag body s
  | .withdraw tag body => Sys2Proof.Machine.execWithdraw tag body s
  | .queryChannel tag body => Sys2Proof.Machine.execQueryChannel tag body s
  | .queryQueue tag body => Sys2Proof.Machine.execQueryQueue tag body s
  | .forceBoundary tag body => Sys2Proof.Machine.execForceBoundary tag body s
  | .clearTrips tag mask => Sys2Proof.Machine.execClearTrips tag mask s
  | .clearAccum tag mask => Sys2Proof.Machine.execClearAccum tag mask s
  | .clearOvercapture tag mask => Sys2Proof.Machine.execClearOvercapture tag mask s
  | .clearCounters tag mask => Sys2Proof.Machine.execClearCounters tag mask s
  | .queryCapture tag body => Sys2Proof.Machine.execQueryCapture tag body s
  | .tableWrite tag body => Sys2Proof.Machine.execTableWrite tag body s
  | .tableRead tag body => Sys2Proof.Machine.execTableRead tag body s
  | .seqArm tag body => Sys2Proof.Machine.execSeqArm tag body s
  | .seqDisarm tag body => Sys2Proof.Machine.execSeqDisarm tag body s
  | .seqHome tag body => Sys2Proof.Machine.execSeqHome tag body s
  | .trigger tag body => Sys2Proof.Machine.execTrigger tag body s
  | .check tag body => Sys2Proof.Machine.execCheck tag body s
  | .stopCheck tag body => Sys2Proof.Machine.execStopCheck tag body s
  | .checkResult tag body => Sys2Proof.Machine.execCheckResult tag body s
  | .byteReceived b => Sys2Proof.Machine.execByteReceived b s
  | .tick => Sys2Proof.Machine.execTick s

end Sys2Proof.Machine
end

