-- ==== Sys2Proof/Safety.lean ====
section
/-! DEFINITION. What counts as a safe run of the part, in the terms the statements use: the conditions that
every step keeps, when a request is taken at once, and how a taken request is answered. -/

namespace Sys2Proof.Machine

/-! ### Conditions that every step keeps -/

/-- Outputs A and B of one channel are never both ACTIVE (R79). -/
def OutputsApart (s : State) : Prop :=
  ∀ c : ChanId, ¬((s.outs.get c).pinA = .active ∧ (s.outs.get c).pinB = .active)

/-- The Posting Queue's own form (R18, R19, R20, R30, R31): at most 32 entries, no two with one key, remaining
counts up to 4095, thresholds in range, HOLD set at or above HOLD_AT and clear at or below RESUME_AT. -/
def QueueWf (s : State) : Prop :=
  s.queue.entries.length ≤ 32
  ∧ (s.queue.entries.map Entry.key).Nodup
  ∧ (∀ e ∈ s.queue.entries, e.remaining ≤ 4095)
  ∧ (2 ≤ s.queue.holdAt ∧ s.queue.holdAt ≤ 32 ∧ s.queue.resumeAt < s.queue.holdAt)
  ∧ (s.queue.holdAt ≤ s.queue.entries.length → s.queue.hold = true)
  ∧ (s.queue.hold = true → s.queue.resumeAt < s.queue.entries.length)

/-- The run state and the Sequence Unit agree with the mode (chapter 1.6, R138). -/
def ModesAgree (s : State) : Prop :=
  (s.tb.run = .running ↔ s.ctl.mode = .run ∨ s.ctl.mode = .check)
  ∧ (s.seq.unit ≠ .disabled → s.ctl.mode = .run)

/-- The queue against the rest of the part (R41): empty outside RUN, and no entry for a channel that is UNUSED
or tripped. -/
def QueueAgrees (s : State) : Prop :=
  ModesAgree s
  ∧ (s.ctl.mode ≠ .run → s.queue.entries = [])
  ∧ (∀ e ∈ s.queue.entries, s.used e.channel = true ∧ s.latched e.channel = false)

/-- Trips are safe (R108): no channel is used in STARTING; the cause set is empty while the latch is clear; an
UNUSED channel's latch is clear; a used channel is tripped while an interlock in its membership is ACTIVE. -/
def TripsWf (s : State) : Prop :=
  (s.ctl.mode = .starting → ∀ c : ChanId, s.used c = false)
  ∧ (∀ c : ChanId, s.latched c = false → (s.trips.get c).cause = 0)
  ∧ (∀ c : ChanId, s.used c = false → s.latched c = false)
  ∧ (∀ c : ChanId, s.used c = true → s.guarded c = true → s.latched c = true)

/-- Timebase settings in range (chapter 1's table, R9). -/
def TbSettings.InRange (g : TbSettings) : Prop :=
  g.prescale ≤ 255 ∧ 16 ≤ g.period ∧ g.period ≤ 65535 ∧ g.rep ≤ 127

/-- The Timebase's counters within their settings (chapter 1's table, R1–R4, R8, R16). -/
def TimebaseWf (s : State) : Prop :=
  ModesAgree s
  ∧ s.tb.active.InRange ∧ s.tb.staged.InRange
  ∧ s.tb.divider ≤ s.tb.active.prescale
  ∧ s.tb.counter ≤ s.tb.active.period
  ∧ s.tb.rep ≤ s.tb.active.rep
  ∧ (s.tb.dir = .up → s.tb.counter < s.tb.active.period)
  ∧ (s.tb.active.align = .edge → s.tb.dir = .up)
  ∧ s.tb.staged.align = s.tb.active.align
  ∧ (s.tb.run = .stopped → s.tb.divider = 0 ∧ s.tb.counter = 0 ∧ s.tb.dir = .up)
  ∧ (s.ctl.mode ≠ .run → s.tb.staged = s.tb.active)

/-- The Notice Queue's form (R188): at most one notice of each kind, counts 1–255, and nothing pending in
STARTING. -/
def NoticesWf (s : State) : Prop :=
  ModesAgree s
  ∧ (s.link.notices.map fun n => n.occ.kind).Nodup
  ∧ (∀ n ∈ s.link.notices, 1 ≤ n.count ∧ n.count ≤ 255)
  ∧ (s.ctl.mode = .starting → s.link.notices = [])

/-- The request buffer's form (R181): at most 4 requests wait, and none waits beside a free decoder unless
RESTART has been taken. -/
def BufferWf (s : State) : Prop :=
  s.link.waiting.length ≤ 4
  ∧ (s.link.service = none → s.link.restarting = false → s.link.waiting = [])

/-- A configuration's default clamps are in range (R47). -/
def ChanCfg.ClampsOk (g : ChanCfg) : Prop :=
  -10000 ≤ g.defLo ∧ g.defLo ≤ 0 ∧ 0 ≤ g.defHi ∧ g.defHi ≤ 10000

/-- An active set within its clamps (R54). -/
def ActiveSet.Within (a : ActiveSet) : Prop :=
  -10000 ≤ a.lo ∧ a.lo ≤ 0 ∧ 0 ≤ a.hi ∧ a.hi ≤ 10000 ∧ a.lo ≤ a.level ∧ a.level ≤ a.hi
  ∧ ∀ r, a.ramp = some r → a.lo ≤ r.target ∧ r.target ≤ a.hi

/-- A pending CLAMP keeps a channel within range: its limits are in range, and its low is 0 unless the channel is
DIRECTIONAL (R22). -/
def Setpoint.ClampOk (m : ChanMode) (sp : Setpoint) : Prop :=
  match sp with
  | .clamp lo hi => -10000 ≤ lo ∧ lo ≤ 0 ∧ 0 ≤ hi ∧ hi ≤ 10000 ∧ (m ≠ .directional → lo = 0)
  | _ => True

/-- Levels lie within their clamps (R54): so do the ramp targets, and the clamp low is 0 on a channel that is not
DIRECTIONAL. -/
def LevelsWf (s : State) : Prop :=
  ModesAgree s
  ∧ (s.ctl.mode ≠ .run → s.queue.entries = [])
  ∧ (∀ e ∈ s.queue.entries, e.setpoint.ClampOk (s.chans.get e.channel).mode)
  ∧ ∀ c : ChanId, (s.chans.get c).act.Within
      ∧ ((s.chans.get c).mode ≠ .directional → (s.chans.get c).act.lo = 0)
      ∧ (s.chans.get c).cfg.ClampsOk ∧ ∀ g, (s.chans.get c).pendCfg = some g → g.ClampsOk

/-! ### Requests taken at once -/

/-- A request that arrives now is taken at once: the receiver runs, the decoder's place is free, nothing waits,
and RESTART has not been taken (R169, R176, R181). -/
def State.ready (s : State) : Bool :=
  decide (s.ctl.mode ≠ .starting) && s.link.service.isNone && s.link.waiting.isEmpty && !s.link.restarting

/-- The reply to a request: TAG unchanged; KIND plus 0x80, or 0xFF for an unknown kind of 0x80 or above; RESULT;
STATUS; the fields (R184). -/
def replyTo (req : Frame) (result status : Byte) (fields : List Byte) : Frame :=
  { kind := if 0x80 ≤ req.kind.toNat then 0xFF else req.kind + 0x80, tag := req.tag
    body := result :: status :: fields }

/-- The Link Unit `l` once the reply that is not built yet, if there is one, is built with the given STATUS byte: the
OVERRUN flag is then clear (R182). -/
def Link.builtWith (l : Link) (status : Byte) : Link :=
  match l.service with
  | some ⟨req, result, fields, none⟩ =>
    { l with
      overrun := false
      service := some ⟨req, result, fields, some (replyTo req result status fields)⟩ }
  | _ => l

/-- What the Link Unit holds once a request has been answered, where `l` is what the request's effects left of it
(R181, R182, R184, R189, R191): the request in service with its reply, STATUS as it stands after the effects, the
OVERRUN flag clear, and an idle transmitter sending the reply, or the oldest notice where one waits beside it. A reply
that is not begun may be built later, with the STATUS byte of then (R115), but for RESTART's, those after which a query
clears a flag, and refusals with REFUSED_STATE, ORDER or LOCKED (model's choices, log 13). -/
def Served (req : Frame) (r : Result) (fields : List Byte) (l : Link) (t : State) : Prop :=
  let reply : Frame := replyTo req r.code (State.statusByte { t with link := l }) fields
  let built : Link := { l with overrun := false, service := some ⟨req, r.code, fields, some reply⟩ }
  let later : Link := { l with service := some ⟨req, r.code, fields, none⟩ }
  let atOnce : Prop := r = .refusedState ∨ r = .order ∨ r = .locked
    ∨ r = .ok ∧ (req.kind = 0x03 ∨ req.kind = 0x12 ∨ req.kind = 0x16)
  match l.tx, l.notices with
  | .sending _ _, _ => t.link = built ∨ ¬atOnce ∧ t.link = later
  | .idle, [] => t.link = { built with tx := .sending reply .reply }
  | .idle, n :: ns =>
    t.link = { built with tx := .sending reply .reply }
    ∨ t.link = { built with tx := .sending n.frame .notice, notices := ns }
    ∨ ¬atOnce ∧ t.link = { later with tx := .sending n.frame .notice, notices := ns }

/-- The request frame that a request command carries (R192, R195); none for the other commands. -/
def requestFrame (c : Instr) : Option Frame :=
  match c with
  | .badKind kind tag body => some { kind := kind, tag := tag, body := body }
  | .identify tag body => some { kind := 0x01, tag := tag, body := body }
  | .status tag body => some { kind := 0x02, tag := tag, body := body }
  | .restart tag body => some { kind := 0x03, tag := tag, body := body }
  | .layout tag body => some { kind := 0x04, tag := tag, body := body }
  | .layoutRead tag body => some { kind := 0x05, tag := tag, body := body }
  | .timebase tag body => some { kind := 0x06, tag := tag, body := body }
  | .start tag body => some { kind := 0x07, tag := tag, body := body }
  | .stop tag body => some { kind := 0x08, tag := tag, body := body }
  | .configWrite tag body => some { kind := 0x09, tag := tag, body := body }
  | .configRead tag body => some { kind := 0x0A, tag := tag, body := body }
  | .lock tag body => some { kind := 0x0B, tag := tag, body := body }
  | .notices tag body => some { kind := 0x0C, tag := tag, body := body }
  | .post tag body => some { kind := 0x10, tag := tag, body := body }
  | .withdraw tag body => some { kind := 0x11, tag := tag, body := body }
  | .queryChannel tag body => some { kind := 0x12, tag := tag, body := body }
  | .queryQueue tag body => some { kind := 0x13, tag := tag, body := body }
  | .forceBoundary tag body => some { kind := 0x14, tag := tag, body := body }
  | .clearTrips tag mask => some { kind := 0x15, tag := tag, body := 0 :: mask }
  | .clearAccum tag mask => some { kind := 0x15, tag := tag, body := 1 :: mask }
  | .clearOvercapture tag mask => some { kind := 0x15, tag := tag, body := 2 :: mask }
  | .clearCounters tag mask => some { kind := 0x15, tag := tag, body := 3 :: mask }
  | .queryCapture tag body => some { kind := 0x16, tag := tag, body := body }
  | .tableWrite tag body => some { kind := 0x18, tag := tag, body := body }
  | .tableRead tag body => some { kind := 0x19, tag := tag, body := body }
  | .seqArm tag body => some { kind := 0x1A, tag := tag, body := body }
  | .seqDisarm tag body => some { kind := 0x1B, tag := tag, body := body }
  | .seqHome tag body => some { kind := 0x1C, tag := tag, body := body }
  | .trigger tag body => some { kind := 0x1D, tag := tag, body := body }
  | .check tag body => some { kind := 0x20, tag := tag, body := body }
  | .stopCheck tag body => some { kind := 0x21, tag := tag, body := body }
  | .checkResult tag body => some { kind := 0x22, tag := tag, body := body }
  | _ => none

/-- The request command `c` has been taken and answered, and the state is `t`: outside the Link Unit (and the
numbering of free choices) it is `s'`, the state after the request's effects; the Link Unit holds the reply. -/
def Taken (c : Instr) (r : Result) (fields : List Byte) (s' t : State) : Prop :=
  ∃ req, requestFrame c = some req
    ∧ t = { s' with link := t.link, freeCount := t.freeCount } ∧ Served req r fields s'.link t

/-- What the transmitter may do with a Link Unit `l` after an event that answered nothing (R189, R191): an idle one
begins the oldest notice, or a reply that waits, built by then; a sending one goes on. A reply that is not begun may be
built now, with STATUS as the event left it (R115; log 13). -/
def NoticeBegun (l : Link) (t : State) : Prop :=
  let built : Link := l.builtWith (State.statusByte { t with link := l })
  (l.tx ≠ .idle ∧ (t.link = l ∨ t.link = built))
  ∨ l.tx = .idle ∧
    (l.notices = [] ∧ l.service = none ∧ t.link = l
      ∨ (∃ n ns, l.notices = n :: ns
        ∧ (t.link = { l with tx := .sending n.frame .notice, notices := ns }
          ∨ t.link = { built with tx := .sending n.frame .notice, notices := ns }))
      ∨ ∃ v r, built.service = some v ∧ v.reply = some r ∧ t.link = { built with tx := .sending r .reply })

/-- The event left the state `s'` outside the Link Unit and the numbering of free choices, and the transmitter
went on with what is waiting. -/
def Became (s' t : State) : Prop :=
  t = { s' with link := t.link, freeCount := t.freeCount } ∧ NoticeBegun s'.link t

/-! ### What the rules say, in the statements' own terms -/

/-- The queue after one removal leaves the entries `es`: HOLD stays set only above RESUME_AT (R31). -/
def afterRemoval (q : PostingQueue) (es : List Entry) : PostingQueue :=
  { q with entries := es, hold := q.hold && decide (q.resumeAt < es.length) }

/-- The FLOW occurrence of a removal, offered where HOLD clears (R31). -/
def flowOfRemoval (q : PostingQueue) (es : List Entry) (l : Link) : Link :=
  if q.hold = true ∧ es.length ≤ q.resumeAt then l.offer (.flow false) else l

/-- An active set reset to OFF, level 0 and no ramp, with its clamps kept (R69, R72). -/
def stoppedSet (a : ActiveSet) : ActiveSet := { drive := .off, level := 0, lo := a.lo, hi := a.hi, ramp := none }

/-- The active set of a fresh start: OFF, level 0, no ramp, the effective default clamps (R46, R54, R71). -/
def freshSet (m : ChanMode) (g : ChanCfg) : ActiveSet :=
  { drive := .off, level := 0, lo := if m = .directional then g.defLo else 0, hi := g.defHi, ramp := none }

/-- The channel is a used member of the interlock under the layout in force (R107). -/
abbrev isMember (s : State) (i : IlId) (c : ChanId) : Prop :=
  (s.chans.get c).mode ≠ .unused ∧ (s.chans.get c).member.getLsbD i.val = true

/-- The interlock's filtered level is its active level (R105). -/
abbrev isActive (x : Interlock) : Prop :=
  x.polarity = .activeLow ∧ x.filtered = .low ∨ x.polarity = .activeHigh ∧ x.filtered = .high

/-- The channel is eligible for clearing (R111). -/
abbrev eligible (s : State) (c : ChanId) : Prop :=
  (s.trips.get c).latch = true
  ∧ ∀ i : IlId, (s.chans.get c).member.getLsbD i.val = true → ¬isActive (s.ils.get i)

/-- The channel is used and eligible for AUTO rearm (R111). -/
abbrev autoEligible (s : State) (c : ChanId) : Prop :=
  (s.chans.get c).mode ≠ .unused ∧ eligible s c
  ∧ ∀ i : IlId, (s.trips.get c).cause.getLsbD i.val = true → (s.ils.get i).rearm = .auto

/-- A channel mask holds exactly the channels for which `p` holds (R193). -/
def MaskOf (m : Half) (p : ChanId → Prop) : Prop := ∀ c : ChanId, m.getLsbD c.val = true ↔ p c

/-- The tick of the frame counter (R2, R3): up to PERIOD−1 in EDGE; up to PERIOD and down to 1 in CENTRED; the tick
that returns it to 0 is a frame end. -/
def Ticked (t u : Timebase) : Prop :=
  u = { t with divider := u.divider, counter := u.counter, dir := u.dir, frameEndDue := u.frameEndDue }
  ∧ u.divider = 0
  ∧ (t.active.align = .edge →
      if t.counter + 1 < t.active.period then
        u.counter = t.counter + 1 ∧ u.dir = t.dir ∧ u.frameEndDue = t.frameEndDue
      else u.counter = 0 ∧ u.dir = .up ∧ u.frameEndDue = true)
  ∧ (t.active.align = .centred ∧ t.dir = .up → u.frameEndDue = t.frameEndDue ∧
      if t.counter + 1 < t.active.period then u.counter = t.counter + 1 ∧ u.dir = .up
      else u.counter = t.active.period ∧ u.dir = .down)
  ∧ (t.active.align = .centred ∧ t.dir = .down →
      if 1 < t.counter then
        u.counter = t.counter - 1 ∧ u.dir = .down ∧ u.frameEndDue = t.frameEndDue
      else u.counter = 0 ∧ u.dir = .up ∧ u.frameEndDue = true)

/-! ### The drive clock (R1, R79, R80, R91) -/

/-- One drive clock takes the part from `b` to `c`: off-time and wanted-time counters and the sample clock count, and
the Timebase counts its divider or completes a tick. -/
def Clocked (b c : State) : Prop :=
  c = { b with
    outs := b.outs.mapId fun ch o =>
      { o with
        offA := if o.pinA = .active then 0 else min (o.offA + 1) 1000
        offB := if o.pinB = .active then 0 else min (o.offB + 1) 1000
        wtA := if o.wantA = true ∧ (b.chans.get ch).mode = .complement then min (o.wtA + 1) 1000 else 0
        wtB := if o.wantB = true ∧ (b.chans.get ch).mode = .complement then min (o.wtB + 1) 1000 else 0
        prior := none }
    sampler := { b.sampler with phase := min (b.sampler.phase + 1) 16 }
    tb := c.tb }
  ∧ (b.tb.run = .stopped → c.tb = b.tb)
  ∧ (b.tb.run = .running → b.tb.divider < b.tb.active.prescale →
      c.tb = { b.tb with divider := b.tb.divider + 1 })
  ∧ (b.tb.run = .running → b.tb.active.prescale ≤ b.tb.divider → Ticked b.tb c.tb)

/-- What is due in `c` has been taken in `t` (log 4): the frame end and the sample of the pins as they stand (where
both are due in either order, by one free choice, log 6, the sample's events on one side of the frame end, log 35),
then the end of STARTING where it is over, then every channel's reference and pins. -/
def DueTaken (c t : State) : Prop :=
  let sample := Instr.sample c.pins.s c.pins.il c.pins.home c.pins.c
  let free := { c with freeCount := c.freeCount + 1 }
  ∃ f g,
    (c.tb.frameEndDue = false → c.sampler.phase ≠ 16 → f = c)
    ∧ (c.tb.frameEndDue = true → c.sampler.phase ≠ 16 → exec .frameEnd c = .next f)
    ∧ (c.tb.frameEndDue = false → c.sampler.phase = 16 → exec sample c = .next f)
    ∧ (c.tb.frameEndDue = true → c.sampler.phase = 16 → ∃ m,
        exec .frameEnd free = .next m ∧ exec sample m = .next f
        ∨ exec sample free = .next m ∧ exec .frameEnd m = .next f)
    ∧ exec (.endOfStarting c.pins.rate1 c.pins.rate0) f = .next g
    ∧ t = g.settle

/-- `n` drive clocks, each with everything that it makes due taken. -/
def Clocks : Nat → State → State → Prop
  | 0, b, c => c = b
  | n + 1, b, c => ∃ m k, Clocked b m ∧ DueTaken m k ∧ Clocks n k c

/-! ### The output pins (R64, R65, R75 to R87) -/

/-- The drive state that a channel's active set gives it in RUN, with its latch clear and the gate mask admitting
it (R64). -/
def commandedState (a : ActiveSet) : DriveState :=
  match a.drive with
  | .off => .idle
  | .brake => .braked
  | .on => if a.ramp = none then .driving else .ramping

/-- What a drive state asks of a channel's outputs, by its mode, safe pattern, check step, reference and side in
force: none where both pins are released; else whether A is wanted, whether B is, and whether the wanted-time delay
applies (R78, R80, R82 to R84, R86). -/
def wantedOf (m : ChanMode) (safe : SafePattern) (d : DriveState) (st : CheckStep) (ref : Bool) (side : Side) :
    Option (Bool × Bool × Bool) :=
  let pulses : Bool × Bool × Bool :=
    match m with
    | .unused => (false, false, false)
    | .single => (ref, false, false)
    | .complement => (ref, !ref, true)
    | .directional => (ref && decide (side = .a), ref && decide (side = .b), false)
  let brake : Bool × Bool × Bool := (false, decide (m ≠ .single), false)
  match d with
  | .unused => some (false, false, false)
  | .idle => some (false, false, false)
  | .blocked => some (false, false, false)
  | .driving => some pulses
  | .ramping => some pulses
  | .braked => some brake
  | .tripped =>
    match safe with
    | .inactive => some (false, false, false)
    | .float => none
    | .brake => some brake
  | .checking =>
    match st with
    | .idle => some (false, false, false)
    | .aOn => some (true, false, false)
    | .bOn => some (false, true, false)
    | .pulsePos => some pulses
    | .pulseNeg => some pulses

/-- What is wanted of channel `c`'s outputs in state `s` under a reference and a side: nothing but release in
STARTING, else what its drive state asks (R88). -/
def State.wants (s : State) (c : ChanId) (ref : Bool) (side : Side) : Option (Bool × Bool × Bool) :=
  if s.ctl.mode = .starting then none
  else wantedOf (s.chans.get c).mode (s.chans.get c).cfg.safe (s.driveState c)
    (match s.check.position with
      | some p => p.step
      | none => .idle) ref side

/-- What is left of the outputs that a channel showed, where `w` is wanted of them: an output no longer wanted leaves
ACTIVE, none becomes ACTIVE, and wanted-time counters go on where they are wanted (R79, R80; log 33). -/
def Shown.left (h : Shown) (m : ChanMode) (w : Option (Bool × Bool × Bool)) : Shown :=
  match w with
  | none => { h with wantA := false, wantB := false, wtA := 0, wtB := 0, pinA := .released, pinB := .released }
  | some (a, b, _) => { h with
      wantA := a, wantB := b
      wtA := if a = true ∧ m = .complement then h.wtA else 0
      wtB := if b = true ∧ m = .complement then h.wtB else 0
      pinA := if h.pinA = .active ∧ a = true then .active else .inactive
      pinB := if h.pinB = .active ∧ b = true then .active else .inactive }

/-- Output record `o` of channel `c` has become `u`, which shows what the state `s` asks: the reference follows the
counter but for a frame end that is due (log 3); outputs are released (wanted inactive and counters 0: log 29), or
leave ACTIVE at once, and become ACTIVE exactly where they are wanted, the partner guard allows it, and so does the
wanted time where it applies (R75, R76, R78 to R80). What was shown before a boundary of this drive clock follows the
state under its own reference and side, becoming ACTIVE nowhere (log 33). -/
def Shows (s : State) (c : ChanId) (o u : Out) : Prop :=
  let g := s.chans.get c
  u = { o with
    ref := u.ref, wantA := u.wantA, wantB := u.wantB, wtA := u.wtA, wtB := u.wtB, offA := u.offA, offB := u.offB
    pinA := u.pinA, pinB := u.pinB, prior := u.prior }
  ∧ u.prior = o.prior.map (fun h => h.left g.mode (s.wants c h.ref h.side))
  ∧ u.ref = (if s.tb.frameEndDue = true ∧ s.tb.run = .running then o.ref
      else if s.tb.active.align = .centred ∧ s.tb.dir = .down then decide (s.tb.counter ≤ o.compare)
      else decide (s.tb.counter < o.compare))
  ∧ match s.wants c u.ref o.side with
    | none => u = { o with
        ref := u.ref, wantA := false, wantB := false, wtA := 0, wtB := 0, pinA := .released, pinB := .released
        prior := u.prior }
    | some (a, b, delayed) =>
      u.wantA = a ∧ u.wantB = b
      ∧ u.wtA = (if a = true ∧ g.mode = .complement then o.wtA else 0)
      ∧ u.wtB = (if b = true ∧ g.mode = .complement then o.wtB else 0)
      ∧ (u.pinA = .active ↔ a = true ∧ (o.pinA = .active
          ∨ ¬(o.pinB = .active ∧ b = true) ∧ g.deadTime ≤ o.offB ∧ (delayed = true → g.deadTime ≤ o.wtA)))
      ∧ (u.pinB = .active ↔ b = true ∧ (o.pinB = .active
          ∨ u.pinA ≠ .active ∧ g.deadTime ≤ o.offA ∧ (delayed = true → g.deadTime ≤ o.wtB)))
      ∧ (u.pinA ≠ .active → u.pinA = .inactive ∧ u.offA = o.offA)
      ∧ (u.pinB ≠ .active → u.pinB = .inactive ∧ u.offB = o.offB)
      ∧ (u.pinA = .active → o.pinA ≠ .active → u.offA = 0)
      ∧ (u.pinB = .active → o.pinB ≠ .active → u.offB = 0)

/-- Output record `o` with the compare value and side of a level `v` loaded (R74): floor of |v| × PERIOD / 10000; the
side A or B by the sign on a DIRECTIONAL channel, else none. -/
def Out.loaded (o : Out) (m : ChanMode) (v : Int) (period : Nat) : Out :=
  { o with
    compare := v.natAbs * period / 10000
    side := if m = .directional ∧ 0 < v then .a else if m = .directional ∧ v < 0 then .b else .none }

/-- Output record `o` as a boundary takes it on: from what it showed before the first boundary of this drive clock, with
its compare value and side (R77; log 33). -/
def Out.resumed (o : Out) : Out :=
  match o.prior with
  | none =>
    let h : Shown :=
      { side := o.side, ref := o.ref, wantA := o.wantA, wantB := o.wantB, wtA := o.wtA, wtB := o.wtB, offA := o.offA
        offB := o.offB, pinA := o.pinA, pinB := o.pinB }
    { o with prior := some h }
  | some h => { o with
      ref := h.ref, wantA := h.wantA, wantB := h.wantB, wtA := h.wtA, wtB := h.wtB, offA := h.offA, offB := h.offB
      pinA := h.pinA, pinB := h.pinB }

/-- Output record of channel `c` when channel `d` begins step `st` of a check: a PULSE step loads the compare value and
side of plus or minus the pulse level; nothing else is loaded (R86, R160). -/
def State.stepOut (s : State) (q : CheckParams) (d : ChanId) (st : CheckStep) (c : ChanId) : Out :=
  let o := s.outs.get c
  if c = d ∧ st = .pulsePos then o.loaded (s.chans.get c).mode q.level s.tb.active.period
  else if c = d ∧ st = .pulseNeg then o.loaded (s.chans.get c).mode (-q.level) s.tb.active.period
  else o

/-- Output record of channel `c` after the AUTO test: the compare value of a channel whose latch clears is 0, its side
none (R74, R112). -/
def State.rearmedOut (s : State) (c : ChanId) : Out :=
  if autoEligible s c then { s.outs.get c with compare := 0, side := .none } else s.outs.get c

/-! ### The line sequence (R134, R135, R139, R145 to R148) -/

/-- A condition source read with its index is true (R135). -/
def sourceHolds (s : State) (source index : Nat) : Prop :=
  match source with
  | 1 => s.sampler.cond.getLsbD index = true
  | 2 => ∃ i : IlId, i.val = index ∧ isActive (s.ils.get i)
  | 3 => ∃ c : ChanId, c.val = index ∧ (s.senses.get c).filtered = .high
  | 4 => ∃ l : LineId, s.seq.current = some l ∧ (s.seq.table.get l).dwell ≠ 0
      ∧ (s.seq.table.get l).dwell.toNat ≤ s.seq.dwell
  | 5 => s.queue.entries = []
  | 6 => s.seq.latches.rampDone.getLsbD index = true
  | 7 => s.seq.latches.accum.getLsbD index = true
  | 8 => s.seq.latches.senseEdge.getLsbD index = true
  | 9 => s.seq.latches.trigger.getLsbD index = true
  | 10 => True
  | _ => False

/-- A slot is not empty and its condition holds: its source is true with the negate flag clear, or false with it set
(R134). -/
def slotTrue (s : State) (t : Slot) : Prop :=
  t.source ≠ 0 ∧ (t.negate = 0 ↔ sourceHolds s t.source.toNat t.index.toNat)

/-- The state that the evaluation of a boundary reads and that an entry by it starts from, as far as they read it
(R28, R145; log 23): at a release boundary after the countdown with its FLOW, the AUTO rearm and the raised dwell
counter. -/
def atEvaluation (forced : Bool) (s : State) : State :=
  if forced = true ∨ s.tb.rep = 0 then
    let es := (s.queue.entries.filter fun e => decide (e.remaining ≠ 0)).map fun e =>
      { e with remaining := e.remaining - 1 }
    { s with
      queue := afterRemoval s.queue es
      link := flowOfRemoval s.queue es s.link
      trips := s.trips.mapId fun c tr => if autoEligible s c then { latch := false, cause := 0 } else tr
      seq := { s.seq with
        dwell := if s.seq.unit = .disabled then s.seq.dwell else min (s.seq.dwell + 1) 65535 } }
  else s

/-- The line state that a boundary's evaluation enters, if it enters one: the winner of a RUNNING unit (R146). -/
def State.slotEntry (p : State) : Option LineId :=
  if p.seq.unit = .running then
    match p.seq.current with
    | some cur => p.winner cur
    | none => none
  else none

/-- The Sequence Unit in line state `l`: current state, dwell, gate mask and status levels (R148 steps 1 to 4). -/
def SeqUnit.inLine (u : SeqUnit) (l : LineId) : SeqUnit :=
  { u with current := some l, dwell := 0, gate := (u.table.get l).gate, status := (u.table.get l).status }

/-- The entry postings of line state `l` handed to the queue one by one, by a unit already in it: the numbers placed
and dropped, and the state (R42, R148 step 6). -/
def State.placeEntry (l : LineId) (p : State) : (Nat × Nat) × State :=
  State.placePostings l ((p.seq.table.get l).postings.data.take (p.seq.table.get l).count.toNat) p

/-- The pending notices of one kind, in order. -/
def Link.ofKind (l : Link) (k : Nat) : List Notice := l.notices.filter fun n => decide (n.occ.kind = k)

/-! ### Skipped visits of a check (R161, R162) -/

/-- The Check Engine after the visit `v` of a tripped channel: a failure is counted, its channel marked, and a
SKIPPED record kept while the log has room. -/
def skipOne (q : CheckParams) (k : CheckEngine) (v : Pass × Nat) : CheckEngine :=
  { k with
    failures := min (k.failures + 1) 65535
    failed := k.failed ||| oneChan (visitChannel q.order v.2)
    log := if k.log.length < 6 then k.log ++
        [{ pass := v.1, channel := visitChannel q.order v.2, step := .skipped, expected := 0, observed := 0
           index := k.frameIndex }]
      else k.log }

/-! ### Postings and failing checks -/

/-- The entries after one posting is inserted where there is room (R20, R25): it coalesces into the entry with
its key, or is appended. -/
def afterPosting (o : Origin) (es : List Entry) (p : Posting) : List Entry :=
  if es.any fun e => decide (e.key = p.key) then
    es.map fun e => if e.key = p.key then { e with setpoint := p.setpoint, origin := o } else e
  else es ++ [{ channel := p.channel, setpoint := p.setpoint, remaining := p.delay, origin := o }]

/-- The disposition bytes of a batch, APPENDED 0 or COALESCED 1 (R25, R196). -/
def dispositions (o : Origin) : List Entry → List Posting → List Byte
  | _, [] => []
  | es, p :: ps =>
    (if es.any fun e => decide (e.key = p.key) then 1 else 0) :: dispositions o (afterPosting o es p) ps

/-- Check `n` of R22 fails for a posting record. -/
def recordFails (s : State) (r : PostRec) (n : Nat) : Prop :=
  let kind := r.kind.toNat
  let v := r.value.toInt
  let x := r.extra.toInt
  match n with
  | 1 => ¬∃ c : ChanId, r.channel.toNat = c.val ∧ (s.chans.get c).mode ≠ .unused
  | 2 => ∃ c : ChanId, r.channel.toNat = c.val ∧ (s.trips.get c).latch = true
  | 3 => 3 < kind
  | 4 => 4095 < r.delay.toNat
  | 5 => kind ≤ 1 ∧ (v < -10000 ∨ 10000 < v)
  | 6 => kind ≤ 1 ∧ v < 0 ∧ ∃ c : ChanId, r.channel.toNat = c.val ∧ (s.chans.get c).mode ≠ .directional
  | 7 => kind = 1 ∧ (r.extra.toNat < 1 ∨ 10000 < r.extra.toNat)
  | 8 => kind = 2 ∧ 2 < r.value.toNat
  | 9 => kind = 3 ∧ (v < -10000 ∨ 0 < v ∨ x < 0 ∨ 10000 < x)
  | 10 => kind = 3 ∧ v < 0 ∧ ∃ c : ChanId, r.channel.toNat = c.val ∧ (s.chans.get c).mode ≠ .directional
  | _ => False

/-- The posting of a record that passes its checks (R18, R196); the extra of a LEVEL or DRIVE is not kept. -/
def recordPosting (r : PostRec) : Posting :=
  { channel := Fin.ofNat 16 r.channel.toNat, delay := r.delay.toNat
    setpoint :=
      match r.kind.toNat with
      | 0 => .level r.value.toInt
      | 1 => .ramp r.value.toInt r.extra.toNat
      | 2 => .drive (if r.value = 0 then .off else if r.value = 1 then .on else .brake)
      | _ => .clamp r.value.toInt r.extra.toInt }

/-- Field `n` of R48 fails in a CONFIG_WRITE body. -/
def configFails (body : List Byte) (n : Nat) : Prop :=
  let b := fun i => (byteAt body i).toNat
  match n with
  | 1 => 15 < b 0
  | 2 => 1 < b 1 ∨ 1 < b 2
  | 3 => 2 < b 3
  | 4 => 2 < b 4
  | 5 => 15 < b 5
  | 6 => 1 < b 6
  | 7 => 2 < b 7
  | 8 => (halfAt body 12).toInt < -10000 ∨ 0 < (halfAt body 12).toInt
  | 9 => (halfAt body 14).toInt < 0 ∨ 10000 < (halfAt body 14).toInt
  | 10 => 1 < b 16 ∨ 1 < b 17 ∨ 1 < b 18
  | _ => False

/-- The check of R9 with number `n` in the table fails for a TIMEBASE body. -/
def timebaseFails (s : State) (body : List Byte) (n : Nat) : Prop :=
  match n with
  | 1 => (halfAt body 1).toNat < 16
  | 2 => 127 < (byteAt body 3).toNat
  | 3 => 1 < (byteAt body 4).toNat
  | 4 => s.ctl.mode = .run ∧ (byteAt body 4).toNat ≠ s.tb.active.align.code
  | 5 => ∃ c : ChanId, ((s.chans.get c).mode = .complement ∨ (s.chans.get c).mode = .directional)
      ∧ (halfAt body 1).toNat * ((byteAt body 0).toNat + 1) < 4 * (s.chans.get c).deadTime
  | _ => False

/-- Fault `n` of a LAYOUT body: the record of channel 0–15, of interlock 16–19, or the HOME filter 20 (R45, R104,
R172, R198). -/
def layoutFails (body : List Byte) (n : Nat) : Prop :=
  if n < 16 then
    let b := byteAt body (2 * n)
    let d := (byteAt body (2 * n + 1)).toNat
    b.extractLsb' 6 2 = 3 ∨ 250 < d ∨ d ≠ 0 ∧ (b.extractLsb' 0 2).toNat < 2
    ∨ b.extractLsb' 0 2 = 0 ∧ (b.extractLsb' 2 4 ≠ 0 ∨ b.extractLsb' 6 2 ≠ 0)
  else if n < 20 then
    1 < (byteAt body (32 + 3 * (n - 16))).toNat ∨ 15 < (byteAt body (32 + 3 * (n - 16) + 1)).toNat
    ∨ 1 < (byteAt body (32 + 3 * (n - 16) + 2)).toNat
  else n = 20 ∧ 15 < (byteAt body 44).toNat

/-- Check `n` of R136 fails in a TABLE_WRITE body, at slot `k` (0 where the check is not made on a slot). -/
def tableFails (body : List Byte) (n k : Nat) : Prop :=
  let sec := (byteAt body 0).toNat
  let slot := fun j => if sec = 0 then 41 + 4 * j else 1 + 4 * j
  let slots := if sec = 0 then 4 else 6
  match n with
  | 1 => k = 0 ∧ 1 < sec
  | 2 => k = 0 ∧ sec = 0 ∧ 9 < (byteAt body 1).toNat
  | 3 => k = 0 ∧ sec = 0 ∧ 4 < (byteAt body 8).toNat
  | 4 => k < slots ∧ 10 < (byteAt body (slot k + 1)).toNat
  | 5 => k < slots ∧ byteAt body (slot k + 1) ≠ 0 ∧ 9 < (byteAt body (slot k)).toNat
  | _ => False

/-- Check `n` of R156 fails in a CHECK body, with the lowest channel at fault (0 unless the check concerns the
mask). -/
def checkFails (s : State) (body : List Byte) (n k : Nat) : Prop :=
  match n with
  | 1 => k = 0 ∧ halfAt body 0 = 0
  | 2 => ∃ c : ChanId, c.val = k ∧ (halfAt body 0).getLsbD c.val = true ∧ (s.chans.get c).mode = .unused
      ∧ ∀ d : ChanId, d < c → (halfAt body 0).getLsbD d.val = true → (s.chans.get d).mode ≠ .unused
  | 3 => k = 0 ∧ 2 < (byteAt body 2).toNat
  | 4 => k = 0 ∧ 1 < (byteAt body 3).toNat
  | 5 => k = 0 ∧ byteAt body 4 = 0
  | 6 => k = 0 ∧ byteAt body 5 = 0
  | 7 => k = 0 ∧ (halfAt body 6 = 0 ∨ 10000 < (halfAt body 6).toNat)
  | _ => False

/-- The largest index that a condition source takes (R135). -/
def indexLimit (source : Nat) : Nat :=
  match source with
  | 1 => 5
  | 2 => 3
  | 3 => 15
  | 6 => 15
  | 7 => 15
  | 8 => 15
  | 9 => 3
  | _ => 0

/-- A slot passes the three slot tests of R139 against a table. -/
def slotSound (u : SeqUnit) (t : Slot) : Prop :=
  t.source = 0 ∨
    (∃ l : LineId, t.target.toNat = l.val ∧ (u.table.get l).defined ≠ 0)
    ∧ (t.negate ≠ 0 → 1 ≤ t.source.toNat ∧ t.source.toNat ≤ 5)
    ∧ t.index.toNat ≤ indexLimit t.source.toNat

/-- A slot fails the slot test of R139 with fault `k`: UNDEFINED_TARGET 1, NEGATED_EVENT 2, INDEX_RANGE 3 (R197). -/
def slotFails (u : SeqUnit) (t : Slot) (k : Nat) : Prop :=
  t.source ≠ 0 ∧
    match k with
    | 1 => ¬∃ l : LineId, t.target.toNat = l.val ∧ (u.table.get l).defined ≠ 0
    | 2 => t.negate ≠ 0 ∧ ¬(1 ≤ t.source.toNat ∧ t.source.toNat ≤ 5)
    | 3 => indexLimit t.source.toNat < t.index.toNat
    | _ => False

/-- An entry posting fails SEQ_ARM's tests with fault `k`: POSTING_CHANNEL 4, POSTING_VALUE 5 (R139, R197). -/
def postingFails (s : State) (r : PostRec) (k : Nat) : Prop :=
  k = 4 ∧ recordFails s r 1 ∨ k = 5 ∧ ∃ n, 3 ≤ n ∧ recordFails s r n

/-- SEQ_ARM's validation has a fault `k` at item `item` number `n` of a place (R139, R197): places L0–L9 0 to 9, the
home state 10, the any-state section 11; items HOME 0, SLOT 1, POSTING 2; fault UNDEFINED_HOME 0. -/
def armFails (s : State) (home : LineId) (place item n k : Nat) : Prop :=
  match item with
  | 0 => place = 10 ∧ n = 0 ∧ k = 0 ∧ (s.seq.table.get home).defined = 0
  | 1 =>
    (∃ l : LineId, place = l.val ∧ (s.seq.table.get l).defined ≠ 0
      ∧ ∃ j : Fin 4, n = j.val ∧ slotFails s.seq ((s.seq.table.get l).slots.get j) k)
    ∨ place = 11 ∧ ∃ j : Fin 6, n = j.val ∧ slotFails s.seq (s.seq.anySlots.get j) k
  | 2 => ∃ l : LineId, place = l.val ∧ (s.seq.table.get l).defined ≠ 0
      ∧ ∃ j : Fin 4, n = j.val ∧ j.val < (s.seq.table.get l).count.toNat
        ∧ postingFails s ((s.seq.table.get l).postings.get j) k
  | _ => False

/-- The order of SEQ_ARM's tests as a number: the home state, L0 to L9, the any-state section; in a place the slots
before the postings, each in order; at one item the tests in order (R139). -/
def armOrder (place item n k : Nat) : Nat :=
  (((if place = 10 then 0 else place + 1) * 3 + item) * 6 + n) * 6 + k

/-- An entry posting passes SEQ_ARM's tests: checks 1 and 3 to 10 of R22 (R139). -/
def postingSound (s : State) (r : PostRec) : Prop := ∀ n, n ≠ 2 → ¬recordFails s r n

/-- The bytes of a frame received one after the other, each with a good stop bit. -/
def sendBytes : List Byte → State → Host.Outcome State Fault Refusal
  | [], s => .next s
  | b :: bs, s =>
    match exec (.byteReceived b) s with
    | .next t => sendBytes bs t
    | .fault r => .fault r
    | .refused r => .refused r

/-! ### The table of requests (R171, R192, R195) -/

/-- One row: the kind's code, the body lengths the decoder passes, the modes SETUP, RUN and CHECK in which the
request is taken, the setup flags it needs, and the lock flags that refuse it. -/
structure RequestRow where
  code : Byte
  lengths : List Nat
  setup : Bool
  run : Bool
  check : Bool
  needsLayout : Bool
  needsTimebase : Bool
  readLock : Bool
  writeLockConfig : Bool
  writeLockAll : Bool
deriving DecidableEq, Repr

/-- A row with modes, no setup flag and no lock. -/
def row (code : Byte) (lengths : List Nat) (setup run check : Bool) : RequestRow :=
  { code := code, lengths := lengths, setup := setup, run := run, check := check, needsLayout := false,
    needsTimebase := false, readLock := false, writeLockConfig := false, writeLockAll := false }

/-- The rows of the requests, in the order of R192. TIMEBASE needs layout_ok in SETUP alone, and TABLE_WRITE's
lengths are 57 for the STATE code and 25 for the ANY code (R171, R195). -/
def requestRows : List RequestRow :=
  [row 0x01 [0] true true true, row 0x02 [0] true true true, row 0x03 [0] true true true,
   { row 0x04 [45] true false false with writeLockAll := true },
   { row 0x05 [0] true true true with readLock := true },
   { row 0x06 [5] true true false with needsLayout := true, writeLockAll := true },
   { row 0x07 [2] true false false with needsLayout := true, needsTimebase := true },
   row 0x08 [0] false true false,
   { row 0x09 [19] true true false with writeLockConfig := true, writeLockAll := true },
   { row 0x0A [1] true true true with readLock := true },
   { row 0x0B [1] true true false with writeLockAll := true },
   { row 0x0C [2] true true false with writeLockAll := true },
   row 0x10 [8, 16, 24, 32, 40, 48] false true false, row 0x11 [2] false true false,
   row 0x12 [2] true true true, row 0x13 [1] true true true, row 0x14 [1] false true false,
   row 0x15 [3] true true false, row 0x16 [1] true true true]
  ++ [{ row 0x18 [25, 57] true true false with writeLockConfig := true, writeLockAll := true },
   { row 0x19 [2] true true true with readLock := true },
   row 0x1A [1] false true false, row 0x1B [0] false true false, row 0x1C [0] false true false,
   row 0x1D [1] false true false,
   { row 0x20 [8] true false false with needsTimebase := true },
   row 0x21 [0] false false true, row 0x22 [0] true true true]

/-- The row of a kind, if the kind is known (R192). -/
def rowOf (kind : Byte) : Option RequestRow := requestRows.find? fun r => decide (r.code = kind)

/-- Check 2 of the decoder: the body's length (R195). -/
def RequestRow.lengthOk (r : RequestRow) (body : List Byte) : Prop :=
  body.length ∈ r.lengths
  ∧ (r.code = 0x18 → (byteAt body 0 = 0 → body.length = 57) ∧ (byteAt body 0 = 1 → body.length = 25))

/-- Check 3 of the decoder: the mode (R171). -/
def RequestRow.modeOk (r : RequestRow) (m : OpMode) : Prop :=
  m = .setup ∧ r.setup = true ∨ m = .run ∧ r.run = true ∨ m = .check ∧ r.check = true

/-- Check 4 of the decoder: the setup flags; TIMEBASE in RUN needs none (R171). -/
def RequestRow.orderOk (r : RequestRow) (m : ModeCtl) : Prop :=
  (r.needsLayout = true → m.layoutOk = true ∨ r.code = 0x06 ∧ m.mode ≠ .setup)
  ∧ (r.needsTimebase = true → m.timebaseOk = true)

/-- Check 5 of the decoder: the lock flags (R171, R177). -/
def RequestRow.locked (r : RequestRow) (m : ModeCtl) : Prop :=
  r.readLock = true ∧ m.readLock = true ∨ r.writeLockConfig = true ∧ m.writeLockConfig = true
  ∨ r.writeLockAll = true ∧ m.writeLockAll = true

end Sys2Proof.Machine
end

