-- ==== Sys2Proof/WellFormed.lean ====
section
/-! DEFINITION. Which commands can occur: a frame's body has at most 60 bytes (R179), a BAD_KIND
request has an unknown kind (R192), and a LEN byte that ends a frame is above 60 (R180). -/

namespace Sys2Proof

/-- The known request kinds (R192). -/
def knownKinds : List Byte :=
  [0x01, 0x02, 0x03, 0x04, 0x05, 0x06, 0x07, 0x08, 0x09, 0x0A, 0x0B, 0x0C,
   0x10, 0x11, 0x12, 0x13, 0x14, 0x15, 0x16, 0x18, 0x19, 0x1A, 0x1B, 0x1C, 0x1D,
   0x20, 0x21, 0x22]

/-- A body fits a frame (R179). -/
def bodyFits (body : List Byte) : Bool := decide (body.length ≤ Config.maxBody)

/-- The command can occur at the part. -/
def Instr.wf : Instr → Bool
  | .powerOn => true
  | .resetPin => true
  | .resetPinRelease => true
  | .endOfStarting _ _ => true
  | .sample _ _ _ _ => true
  | .frameEnd => true
  | .checkStepEnd => true
  | .compareMatch _ => true
  | .deadTimeExpiry _ _ => true
  | .wantedTimeExpiry _ _ => true
  | .framingError (.lenAbove b) => decide (Config.maxBody < b.toNat)
  | .framingError .badStop => true
  | .interByteGap => true
  | .frameComplete _ => true
  | .frameSent => true
  | .badKind kind _ body => !knownKinds.contains kind && bodyFits body
  | .identify _ body => bodyFits body
  | .status _ body => bodyFits body
  | .restart _ body => bodyFits body
  | .layout _ body => bodyFits body
  | .layoutRead _ body => bodyFits body
  | .timebase _ body => bodyFits body
  | .start _ body => bodyFits body
  | .stop _ body => bodyFits body
  | .configWrite _ body => bodyFits body
  | .configRead _ body => bodyFits body
  | .lock _ body => bodyFits body
  | .notices _ body => bodyFits body
  | .post _ body => bodyFits body
  | .withdraw _ body => bodyFits body
  | .queryChannel _ body => bodyFits body
  | .queryQueue _ body => bodyFits body
  | .forceBoundary _ body => bodyFits body
  | .clearTrips _ mask => decide (mask.length < Config.maxBody)
  | .clearAccum _ mask => decide (mask.length < Config.maxBody)
  | .clearOvercapture _ mask => decide (mask.length < Config.maxBody)
  | .clearCounters _ mask => decide (mask.length < Config.maxBody)
  | .queryCapture _ body => bodyFits body
  | .tableWrite _ body => bodyFits body
  | .tableRead _ body => bodyFits body
  | .seqArm _ body => bodyFits body
  | .seqDisarm _ body => bodyFits body
  | .seqHome _ body => bodyFits body
  | .trigger _ body => bodyFits body
  | .check _ body => bodyFits body
  | .stopCheck _ body => bodyFits body
  | .checkResult _ body => bodyFits body
  | .byteReceived _ => true
  | .tick => true

end Sys2Proof
end

