-- ==== Sys2Proof/Certificates/Slice0/Obligations.lean ====
section
/-! DEFINITION. The statements for the provers. A statement that rests on a choice of the model names its log
entry. -/

open Sys2Proof Sys2Proof.Machine

/-! ### The queue of commands and the resets -/

/-- A step takes the command at the front of the queue, and no command touches the queue of commands (the queue
is the model's own, log 2). -/
def Obligations.StepTakesFront : Prop :=
  (∀ (c : Instr) (cs : List Instr) (s : State),
    s.pending = c :: cs → step s = exec c { s with pending := cs })
  ∧ ∀ (c : Instr) (s t : State), exec c s = .next t → t.pending = s.pending

/-- With no command waiting a step is one drive clock (log 2): what is due is taken, every counter of drive clocks
counts, the sample clock and the Timebase count (the clock that completes a tick among them), and what this makes
due is taken: a frame end, a sample, the end of STARTING, the references and pins (log 4, 6). Where nothing is due
before or at its end, the counters count and the references and pins follow, and nothing else happens. Model's choices
too: a due sample reads the held levels of the input pins (log 5); its events stand all on one side of a frame end that
is due with it (log 35); wanted-time counters are 0 outside COMPLEMENT mode
(log 24); what was shown before a boundary of the drive clock before is forgotten (log 33). -/
def Obligations.EmptyQueueIsOneDriveClock : Prop :=
  (∀ s : State, s.pending = [] → ∃ b t, DueTaken s b ∧ Clocks 1 b t ∧ step s = .next t)
  ∧ ∀ s : State, s.pending = [] → s.settle = s → s.tb.frameEndDue = false → s.sampler.phase < 15 →
    (s.ctl.mode = .starting → s.ctl.startCount < 32 ∨ s.pins.resetAsserted = true) →
    (s.tb.run = .running → s.tb.divider < s.tb.active.prescale) →
    step s = .next (State.settle { s with
      outs := s.outs.mapId fun c o =>
        { o with
          offA := if o.pinA = .active then 0 else min (o.offA + 1) 1000
          offB := if o.pinB = .active then 0 else min (o.offB + 1) 1000
          wtA := if o.wantA = true ∧ (s.chans.get c).mode = .complement then min (o.wtA + 1) 1000 else 0
          wtB := if o.wantB = true ∧ (s.chans.get c).mode = .complement then min (o.wtB + 1) 1000 else 0
          prior := none }
      sampler := { s.sampler with phase := s.sampler.phase + 1 }
      tb := if s.tb.run = .running then { s.tb with divider := s.tb.divider + 1 } else s.tb })

/-- POWER_ON, RESET_PIN and the end of the RESTART reply each reset every unit; the input pins and the waiting
commands stay (log 20), and the cause is POWER (PIN under an asserted RESET pin), PIN or RESTART. What each unit
holds after reset: the values of the units' tables and rules, one by one. The link rate (none before the straps are
read) is the model's (log 27). -/
def Obligations.ResetsGiveEveryUnitItsValues : Prop :=
  (∀ s : State,
     exec .powerOn s = .next { State.reset with
       pending := s.pending, pins := s.pins, freeCount := s.freeCount
       ctl := .afterReset (if s.pins.resetAsserted = true then .pin else .power) }
     ∧ exec .resetPin s = .next { State.reset with
       pending := s.pending, pins := { s.pins with resetAsserted := true }, freeCount := s.freeCount
       ctl := .afterReset .pin }
     ∧ ∀ f, s.link.tx = .sending f .reply → s.link.restarting = true →
       exec .frameSent s = .next { State.reset with
         pending := s.pending, pins := s.pins, freeCount := s.freeCount, ctl := .afterReset .restart })
  ∧ (State.reset.tb = { active := { prescale := 0, period := 2000, rep := 0, align := .edge }
                        staged := { prescale := 0, period := 2000, rep := 0, align := .edge }
                        divider := 0, counter := 0, dir := .up, rep := 0, bnum := 0, run := .stopped
                        frameEndDue := false }
     ∧ State.reset.queue = { entries := [], hold := false, holdAt := 24, resumeAt := 16 }
     ∧ (∀ c : ChanId, State.reset.chans.get c =
         { mode := .unused, deadTime := 0, member := 0, role := .none, pendCfg := none, clamped := false
           cfg := { polA := .activeHigh, polB := .activeHigh, safe := .inactive, edge := .rising, filter := 0
                    endStop := .off, accMode := .wrap, threshold := 2147483647, defLo := -10000, defHi := 10000
                    expIdle := .low, expA := .high, expB := .low }
           act := { drive := .off, level := 0, lo := 0, hi := 10000, ramp := none } }
       ∧ State.reset.outs.get c =
         { compare := 0, side := .none, ref := false, wantA := false, wantB := false, wtA := 0, wtB := 0
           offA := 0, offB := 0, pinA := .released, pinB := .released, prior := none }
       ∧ State.reset.senses.get c =
         { filtered := .low, run := 0, capture := none, captured := false, overcaptured := false }
       ∧ State.reset.trips.get c = { latch := false, cause := 0 })
     ∧ (∀ i : IlId, State.reset.ils.get i =
         { polarity := .activeLow, filter := 0, rearm := .manual, filtered := .high, run := 0 })
     ∧ State.reset.home = { filter := 0, filtered := .high, run := 0 }
     ∧ State.reset.check =
         { running := false, status := .none, reason := .none, params := none, position := none, edges := 0
           frameIndex := 0, log := [], failures := 0, failed := 0 }
     ∧ State.reset.ctl =
         { mode := .starting, cause := .power, startCount := 0, layoutOk := false, timebaseOk := false
           readLock := false, writeLockConfig := false, writeLockAll := false }
     ∧ State.reset.link =
         { rx := .hunting, waiting := [], service := none, overrun := false, framingErrors := 0, crcErrors := 0
           overruns := 0, notices := [], mask := 0x00E6, tx := .idle, lastFrame := .notice
           restarting := false, rate := none }
     ∧ State.reset.sampler.phase = 0)

/-- After a reset of any cause the accumulators are cleared and armed under WRAP and the reset threshold, the
Sequence Unit is DISABLED with an empty table, and no occurrence has been offered for what the reset ended. -/
def Obligations.ResetClearsAccumulatorsAndSequence : Prop :=
  ∀ (c : Instr) (s t : State),
    (c = .powerOn ∨ c = .resetPin
      ∨ c = .frameSent ∧ s.link.restarting = true ∧ ∃ f, s.link.tx = .sending f .reply) →
    exec c s = .next t →
    (∀ ch : ChanId, t.accs.get ch = { value := 0, count := 0, sat := false, armed := true }
      ∧ (t.chans.get ch).cfg.accMode = .wrap ∧ (t.chans.get ch).cfg.threshold = 2147483647)
    ∧ t.seq.unit = .disabled
    ∧ (∀ l : LineId, (t.seq.table.get l).defined = 0
      ∧ ∀ k : Fin 4, ((t.seq.table.get l).slots.get k).source = 0)
    ∧ (∀ k : Fin 6, (t.seq.anySlots.get k).source = 0)
    ∧ t.seq.home = none ∧ t.seq.current = none ∧ t.seq.dwell = 0
    ∧ t.seq.latches = { rampDone := 0, accum := 0, senseEdge := 0, trigger := 0 }
    ∧ t.seq.held = { rampDone := 0, accum := 0, senseEdge := 0, trigger := 0 }
    ∧ t.seq.drops = 0 ∧ (∀ ch : ChanId, t.seq.gate.getLsbD ch.val = true) ∧ t.seq.status = 0
    ∧ t.queue.entries = [] ∧ t.link.notices = []

/-- RESET_PIN_RELEASE lets the 512 drive clocks of STARTING count from the release (log 16); without effect where
the pin is not asserted. END_OF_STARTING at the 32nd sample: the straps are read, the mode becomes SETUP, the
receiver hunts, READY is offered whatever the mask, and both pins of every UNUSED channel are driven INACTIVE;
otherwise nothing (log 1). Model's choice in when a reply is built: log 13. -/
def Obligations.StartingEndsInSetup : Prop :=
  (∀ s : State,
     (s.pins.resetAsserted = true → exec .resetPinRelease s = .next { s with
       pins := { s.pins with resetAsserted := false }, sampler := { s.sampler with phase := 0 } })
     ∧ (s.pins.resetAsserted = false → exec .resetPinRelease s = .next s))
  ∧ (∀ (r1 r0 : Level) (s : State),
       (s.ctl.mode = .starting ∧ s.ctl.startCount = 32 ∧ s.pins.resetAsserted = false →
         ∃ t rate, exec (.endOfStarting r1 r0) s = .next t
           ∧ rate = BitVec.ofNat 2 ((if r1 = .high then 2 else 0) + (if r0 = .high then 1 else 0))
           ∧ Became { s with
               pins := { s.pins with rate1 := r1, rate0 := r0 }
               ctl := { s.ctl with mode := .setup }
               outs := t.outs
               link := { s.link with
                 rx := .hunting, rate := some rate
                 notices := s.link.notices ++ [{ occ := .ready s.ctl.cause rate, count := 1 }] } } t
           ∧ ∀ c : ChanId, s.used c = false →
               (t.outs.get c).pinA = .inactive ∧ (t.outs.get c).pinB = .inactive)
       ∧ (¬(s.ctl.mode = .starting ∧ s.ctl.startCount = 32 ∧ s.pins.resetAsserted = false) →
         exec (.endOfStarting r1 r0) s = .next s))

/-! ### Samples -/

/-- Every sample moves each filtered level by the one filter rule, whatever else it causes: a differing sample
raises the run, and the filtered level takes the sample when the raised run is at or above the filter. A sample that
changes no filtered level: the sample clock restarts, the pins and condition inputs are as sampled, every run is 0
or one higher (up to 15), the start-up count rises in STARTING, and nothing else happens. A SAMPLE is taken whatever
the sample clock shows, and restarts it (model's choice, log 1). Model's choice in when a reply is built: log 13. -/
def Obligations.SamplesAreFiltered : Prop :=
  (∀ (ss : Half) (il : BitVec 4) (home : Level) (c : BitVec 6) (s : State),
     ∃ t, exec (.sample ss il home c) s = .next t
       ∧ (∀ ch : ChanId, ∀ x l, x = s.senses.get ch → l = Level.ofBool (ss.getLsbD ch.val) →
         ((t.senses.get ch).filtered, (t.senses.get ch).run) =
           if l = x.filtered then (x.filtered, 0)
           else if (s.chans.get ch).cfg.filter ≤ min (x.run + 1) 15 then (l, 0)
           else (x.filtered, min (x.run + 1) 15))
       ∧ (∀ i : IlId, ∀ x l, x = s.ils.get i → l = Level.ofBool (il.getLsbD i.val) →
         ((t.ils.get i).filtered, (t.ils.get i).run) =
           if l = x.filtered then (x.filtered, 0)
           else if x.filter ≤ min (x.run + 1) 15 then (l, 0)
           else (x.filtered, min (x.run + 1) 15))
       ∧ (t.home.filtered, t.home.run) =
           (if home = s.home.filtered then (s.home.filtered, 0)
           else if s.home.filter ≤ min (s.home.run + 1) 15 then (home, 0)
           else (s.home.filtered, min (s.home.run + 1) 15))
       ∧ t.sampler = { phase := 0, cond := c })
  ∧ (∀ (ss : Half) (il : BitVec 4) (home : Level) (c : BitVec 6) (s : State),
       s.pinEvents { s := ss, il := il, home := home, c := c } = [] →
       ∃ t, exec (.sample ss il home c) s = .next t ∧ Became { s with
         pins := { s.pins with s := ss, il := il, home := home, c := c }
         sampler := { phase := 0, cond := c }
         senses := s.senses.mapId fun ch x =>
           { x with run := if Level.ofBool (ss.getLsbD ch.val) = x.filtered then 0 else min (x.run + 1) 15 }
         ils := s.ils.mapId fun i x =>
           { x with run := if Level.ofBool (il.getLsbD i.val) = x.filtered then 0 else min (x.run + 1) 15 }
         home := { s.home with run := if home = s.home.filtered then 0 else min (s.home.run + 1) 15 }
         ctl := if s.ctl.mode = .starting ∧ s.pins.resetAsserted = false then
             { s.ctl with startCount := min (s.ctl.startCount + 1) 32 } else s.ctl } t)

/-- A sample in RUN whose one event is an edge of channel `ch`: a selected edge of a CAPTURE or END_STOP channel is
captured with the Timebase's position, latched by a RUNNING unit and reported; an END_STOP channel that drives takes
OFF or BRAKE with no ramp at once. Any other edge only moves the filtered level. A sample in CHECK whose one event
is an edge: the edge of the channel CHECKING in a PULSE step raises the edge count (up to 255), any other changes
nothing but the filtered level. In SETUP and STARTING an edge moves the filtered level alone: no capture, no flag, no
event, no end-stop order. The pins of a channel under an end-stop order show its new state. Model's choices: an edge
taken while a frame end is due records the counter as the tick left it, 0 and UP (log 32); in what the pins show: log 3,
24, 29, 33. Model's choice in when a reply is built: log 13. -/
def Obligations.SamplesTakeEdges : Prop :=
  (∀ (ss : Half) (il : BitVec 4) (home : Level) (c : BitVec 6) (s : State) (ch : ChanId) (l : Level),
     s.ctl.mode = .run → s.pinEvents { s := ss, il := il, home := home, c := c } = [.edge ch l] →
     ∀ (g : Channel) (x : Sense) (r : State), g = s.chans.get ch → x = s.senses.get ch →
     r = s.readSample { s := ss, il := il, home := home, c := c } →
     ∃ t, exec (.sample ss il home c) s = .next t
       ∧ ((g.cfg.edge = .both ∨ g.cfg.edge = .rising ∧ l = .high ∨ g.cfg.edge = .falling ∧ l = .low)
           ∧ g.role ≠ .none →
         Became { r with
           senses := r.senses.set ch
             { filtered := l, run := 0, captured := true, overcaptured := x.overcaptured || x.captured
               capture := some
                 { bnum := s.tb.bnum, frameIndex := s.tb.active.rep - s.tb.rep, counter := s.tb.counter
                   dir := s.tb.dir, edge := if l = .high then .rising else .falling } }
           seq := if s.seq.unit = .running then
               { s.seq with latches :=
                 { s.seq.latches with senseEdge := s.seq.latches.senseEdge ||| oneChan ch } }
             else s.seq
           chans :=
             if g.role = .endStop ∧ (s.driveState ch = .driving ∨ s.driveState ch = .ramping) then
               s.chans.set ch { g with act :=
                 { g.act with drive := if g.cfg.endStop = .brake then .brake else .off, ramp := none } }
             else s.chans
           outs := t.outs
           link := s.link.offer (.channelEvent (oneChan ch)) } t
         ∧ (∀ d : ChanId, d ≠ ch → t.outs.get d = s.outs.get d)
         ∧ (g.role = .endStop ∧ (s.driveState ch = .driving ∨ s.driveState ch = .ramping) →
             t.driveState ch = (if g.cfg.endStop = .brake then .braked else .idle)
             ∧ Shows t ch (s.outs.get ch) (t.outs.get ch)
             ∧ (t.outs.get ch).pinA ≠ .active ∧ (g.cfg.endStop = .off → (t.outs.get ch).pinB ≠ .active))
         ∧ (¬(g.role = .endStop ∧ (s.driveState ch = .driving ∨ s.driveState ch = .ramping)) →
             t.outs = s.outs))
       ∧ (¬((g.cfg.edge = .both ∨ g.cfg.edge = .rising ∧ l = .high ∨ g.cfg.edge = .falling ∧ l = .low)
           ∧ g.role ≠ .none) →
         Became { r with senses := r.senses.set ch { x with filtered := l, run := 0 } } t))
  ∧ (∀ (ss : Half) (il : BitVec 4) (home : Level) (c : BitVec 6) (s : State) (ch : ChanId) (l : Level)
       (q : CheckParams) (p : Position),
       s.ctl.mode = .check → s.check.params = some q → s.check.position = some p →
       s.pinEvents { s := ss, il := il, home := home, c := c } = [.edge ch l] →
       ∀ r : State, r = s.readSample { s := ss, il := il, home := home, c := c } →
       ∃ t, exec (.sample ss il home c) s = .next t ∧ Became { r with
         senses := r.senses.set ch { s.senses.get ch with filtered := l, run := 0 }
         check := if visitChannel q.order p.place = ch ∧ (p.step = .pulsePos ∨ p.step = .pulseNeg) then
             { s.check with edges := min (s.check.edges + 1) 255 } else s.check } t)
  ∧ ∀ (ss : Half) (il : BitVec 4) (home : Level) (c : BitVec 6) (s : State) (ch : ChanId) (l : Level) (r : State),
      s.ctl.mode = .setup ∨ s.ctl.mode = .starting →
      s.pinEvents { s := ss, il := il, home := home, c := c } = [.edge ch l] →
      r = s.readSample { s := ss, il := il, home := home, c := c } →
      ∃ t, exec (.sample ss il home c) s = .next t
        ∧ Became { r with senses := r.senses.set ch { s.senses.get ch with filtered := l, run := 0 } } t

/-- A sample whose one event makes interlock `i` ACTIVE trips every used member in that event: latches and cause
sets, the flush with its HOLD test, the TRIP occurrence, the safe pattern at the pins; the active sets are kept.
In CHECK the check is then aborted and the part returns to SETUP: the AUTO test, made after the trips, clears the
latches of the eligible channels with their active sets reset, every channel shows its SETUP pattern, and CHECK_DONE
follows TRIP. Model's choices: where the flush clears HOLD, FLOW is offered before TRIP (log 34); in what the pins show:
log 3, 24, 29, 33. Model's choice in when a reply is built: log 13. -/
def Obligations.ActivationTripsMembers : Prop :=
  ∀ (ss : Half) (il : BitVec 4) (home : Level) (c : BitVec 6) (s : State) (i : IlId) (l : Level)
    (r y : State) (x : Interlock) (m : Half) (es : List Entry) (k : Link),
    s.pinEvents { s := ss, il := il, home := home, c := c } = [.interlock i l] →
    r = s.readSample { s := ss, il := il, home := home, c := c } →
    x = { s.ils.get i with filtered := l, run := 0 } → isActive x →
    MaskOf m (isMember s i) → es = s.queue.entries.filter (fun e => decide (¬isMember s i e.channel)) →
    k = (if m = 0 then s.link
      else (flowOfRemoval s.queue es s.link).offer
        (.trip i m (s.queue.entries.length - es.length))) →
    y = { r with
      ils := r.ils.set i x
      trips := s.trips.mapId fun d tr =>
        if isMember s i d then { latch := true, cause := tr.cause ||| (1#4 <<< i.val) } else tr
      queue := if m = 0 then s.queue else afterRemoval s.queue es } →
    ∃ t, exec (.sample ss il home c) s = .next t
      ∧ (s.ctl.mode = .starting → Became { r with ils := r.ils.set i x } t)
      ∧ (s.ctl.mode = .setup ∨ s.ctl.mode = .run →
        Became { y with outs := t.outs, link := k } t
        ∧ ∀ d : ChanId, ¬isMember s i d → t.outs.get d = s.outs.get d)
      ∧ (s.ctl.mode ≠ .starting → ∀ d : ChanId, isMember s i d → t.driveState d = .tripped
          ∧ (t.outs.get d).pinA ≠ .active
          ∧ ((s.chans.get d).cfg.safe = .inactive →
              (t.outs.get d).pinA = .inactive ∧ (t.outs.get d).pinB = .inactive)
          ∧ ((s.chans.get d).cfg.safe = .float →
              (t.outs.get d).pinA = .released ∧ (t.outs.get d).pinB = .released)
          ∧ ((s.chans.get d).cfg.safe = .brake ∧ (s.chans.get d).mode = .single →
              (t.outs.get d).pinB = .inactive)
          ∧ ((s.chans.get d).cfg.safe = .brake ∧ (s.chans.get d).mode ≠ .single →
              ((t.outs.get d).pinB = .active ↔ (s.outs.get d).pinB = .active
                ∨ (s.chans.get d).deadTime ≤ (s.outs.get d).offA)))
      ∧ (s.ctl.mode = .check →
        Became { y with
          ctl := { s.ctl with mode := .setup }
          tb := { s.tb with divider := 0, counter := 0, dir := .up, run := .stopped }
          check := { s.check with
            running := false, status := .aborted, reason := .interlock i, position := none }
          trips := y.trips.mapId fun d tr => if autoEligible y d then { latch := false, cause := 0 } else tr
          chans := s.chans.mapId fun d ch =>
            if autoEligible y d then { ch with act := stoppedSet ch.act } else ch
          outs := t.outs
          link := k.offer (.checkDone .aborted (.interlock i) s.check.failures) } t
        ∧ (∀ d : ChanId, isMember s i d →
            t.trips.get d = { latch := true, cause := (s.trips.get d).cause ||| (1#4 <<< i.val) })
        ∧ ∀ d : ChanId, Shows t d (y.rearmedOut d) (t.outs.get d)
          ∧ ((s.chans.get d).mode ≠ .unused → (t.trips.get d).latch = false →
            t.driveState d = .idle ∧ (t.outs.get d).pinA = .inactive ∧ (t.outs.get d).pinB = .inactive))

/-- A sample whose one event releases interlock `i`: in SETUP the latch of every channel eligible for AUTO rearm
clears, with its active set reset, its compare value 0 and its pins INACTIVE; in the other modes no latch
clears. Model's choice in when a reply is built: log 13. -/
def Obligations.ReleaseRearmsInSetup : Prop :=
  ∀ (ss : Half) (il : BitVec 4) (home : Level) (c : BitVec 6) (s : State) (i : IlId) (l : Level)
    (r : State) (x : Interlock),
    s.pinEvents { s := ss, il := il, home := home, c := c } = [.interlock i l] →
    x = { s.ils.get i with filtered := l, run := 0 } → ¬isActive x →
    r = { s.readSample { s := ss, il := il, home := home, c := c } with
      ils := (s.readSample { s := ss, il := il, home := home, c := c }).ils.set i x } →
    ∃ t, exec (.sample ss il home c) s = .next t
      ∧ (s.ctl.mode ≠ .setup → Became r t)
      ∧ (s.ctl.mode = .setup →
        Became { r with
          trips := s.trips.mapId fun d tr => if autoEligible r d then { latch := false, cause := 0 } else tr
          chans := s.chans.mapId fun d ch =>
            if autoEligible r d then { ch with act := stoppedSet ch.act } else ch
          outs := t.outs } t
        ∧ (∀ d : ChanId, ¬autoEligible r d → t.outs.get d = s.outs.get d)
        ∧ ∀ d : ChanId, autoEligible r d → t.driveState d = .idle ∧ (t.outs.get d).compare = 0
          ∧ (t.outs.get d).pinA = .inactive ∧ (t.outs.get d).pinB = .inactive)

/-- A sample whose one event is a change of the HOME pin: LOW makes a RUNNING unit enter its home state with cause
HOME_PIN and become HELD; HIGH makes a HELD unit RUNNING without an entry; otherwise only the filtered level
moves. Model's choice in when a reply is built: log 13. -/
def Obligations.HomePinHoldsAndReleases : Prop :=
  ∀ (ss : Half) (il : BitVec 4) (home : Level) (c : BitVec 6) (s : State) (l : Level) (r : State),
    s.pinEvents { s := ss, il := il, home := home, c := c } = [.home l] →
    r = { s.readSample { s := ss, il := il, home := home, c := c } with
      home := { s.home with filtered := l, run := 0 } } →
    ∃ t, exec (.sample ss il home c) s = .next t
      ∧ (∀ h u, l = .low → s.seq.unit = .running → s.seq.home = some h → u = (r.enterOutside h .homePin).2 →
          Became { u with seq := { u.seq with unit := .held } } t ∧ t.seq.current = some h ∧ t.seq.dwell = 0)
      ∧ (l = .low → s.seq.unit ≠ .running → Became r t)
      ∧ (l = .high → s.seq.unit = .held → Became { r with seq := { s.seq with unit := .running } } t)
      ∧ (l = .high → s.seq.unit ≠ .held → Became r t)

/-! ### Boundaries -/

/-- FRAME_END: while STOPPED it is discarded; in RUN it is a boundary with every unit's work, and in CHECK a frame
boundary of the Check Engine. FRAME_END comes when its sender says (log 1). Model's choice in when a reply is built: log 13. -/
def Obligations.FrameEndRaisesBoundary : Prop :=
  ∀ s : State, ∃ t, exec .frameEnd s = .next t
    ∧ (s.tb.run = .stopped → Became { s with tb := { s.tb with frameEndDue := false } } t)
    ∧ (s.tb.run = .running → s.ctl.mode = .run →
      Became (State.runBoundary false false { s with tb := { s.tb with frameEndDue := false } }) t)
    ∧ (s.tb.run = .running → s.ctl.mode = .check →
      t.tb = { s.tb with divider := 0, counter := 0, dir := .up, frameEndDue := false, run := t.tb.run }
      ∧ t.queue = s.queue ∧ t.accs = s.accs ∧ t.seq = s.seq ∧ t.senses = s.senses)

/-- A natural boundary in RUN is a release boundary when the repetition counter is 0, a forced one always: the
counters restart; a release boundary adopts the staged settings, reloads the repetition counter from the adopted
REPEAT and adds 1 to BNUM; another lowers the repetition counter. A release boundary offers BOUNDARY with the new
BNUM and the FORCED flag unless it is forced with QUIET; no other boundary does. What a boundary in RUN leaves as it
was; an off-time of output A restarts or stays, and a second boundary on one drive clock takes it on from what it was
before the first (model's choice, log 33). -/
def Obligations.BoundaryMovesTimebase : Prop :=
  (∀ (forced quiet : Bool) (s : State),
     (State.runBoundary forced quiet s).tb =
       if forced = true ∨ s.tb.rep = 0 then
         { active := s.tb.staged, staged := s.tb.staged, divider := 0, counter := 0, dir := .up
           rep := s.tb.staged.rep, bnum := s.tb.bnum + 1, run := s.tb.run, frameEndDue := s.tb.frameEndDue }
       else { s.tb with divider := 0, counter := 0, dir := .up, rep := s.tb.rep - 1 })
  ∧ (∀ (forced quiet : Bool) (s : State), (∀ n ∈ s.link.notices, n.occ.kind ≠ 8) →
       ((∃ n ∈ (State.runBoundary forced quiet s).link.notices, n.occ.kind = 8)
         ↔ (forced = true ∧ quiet = false ∨ forced = false ∧ s.tb.rep = 0) ∧ s.link.mask.getLsbD 8 = true)
       ∧ ∀ n ∈ (State.runBoundary forced quiet s).link.notices, n.occ.kind = 8 →
         n = { occ := .boundary (s.tb.bnum + 1) forced, count := 1 })
  ∧ (∀ (forced quiet : Bool) (s : State) (u : State), u = State.runBoundary forced quiet s →
       u.pending = s.pending ∧ u.senses = s.senses ∧ u.sampler = s.sampler ∧ u.ils = s.ils ∧ u.home = s.home
       ∧ u.check = s.check ∧ u.ctl = s.ctl ∧ u.pins = s.pins
       ∧ u.link = { s.link with notices := u.link.notices }
       ∧ u.queue.holdAt = s.queue.holdAt ∧ u.queue.resumeAt = s.queue.resumeAt
       ∧ ∀ c : ChanId, (u.outs.get c).offA = 0 ∨ (u.outs.get c).offA = (s.outs.get c).resumed.offA)

/-- The countdown of a boundary: at a release boundary the entries with remaining count 0 leave, every other one is
lowered by 1 in its place, and the HOLD test is made, with its FLOW; at another boundary nothing changes. Where the
evaluation of a RUNNING unit enters a line state, its entry postings come after the countdown, one by one, with
their own HOLD tests; otherwise the queue stays as the countdown left it. The pending FLOW notice is the one these
offers leave. The order of a boundary's work is the model's reading (log 23). -/
def Obligations.BoundaryCountsDownQueue : Prop :=
  ∀ (forced quiet : Bool) (s u p : State) (es : List Entry),
    u = State.runBoundary forced quiet s → p = atEvaluation forced s →
    es = (s.queue.entries.filter fun e => decide (e.remaining ≠ 0)).map (fun e =>
      { e with remaining := e.remaining - 1 }) →
    (p.queue = if forced = true ∨ s.tb.rep = 0 then afterRemoval s.queue es else s.queue)
    ∧ (p.link = if forced = true ∨ s.tb.rep = 0 then flowOfRemoval s.queue es s.link else s.link)
    ∧ (s.seq.unit ≠ .running → p.slotEntry = none)
    ∧ match p.slotEntry with
      | none => u.queue = p.queue ∧ u.link.ofKind 2 = p.link.ofKind 2
      | some l => ∀ (n : Nat × Nat) (v : State),
          State.placeEntry l { p with seq := p.seq.inLine l } = (n, v) →
          u.queue = v.queue ∧ u.link.ofKind 2 = v.link.ofKind 2

/-- What a boundary does to each channel, in order: a release boundary adopts the pending configuration and applies
the channel's due entries in queue order; a channel that was RAMPING and still has a ramp and drive ON takes a ramp
step, offering RAMP_DONE where the step completes the ramp; and AUTO rearm resets an eligible channel's active
set. -/
def Obligations.BoundaryMovesChannels : Prop :=
  ∀ (forced quiet : Bool) (s : State) (c : ChanId) (release : Bool) (a b : Channel),
    release = decide (forced = true ∨ s.tb.rep = 0) →
    a = (if release = true then
        (s.queue.entries.filter fun e => decide (e.remaining = 0 ∧ e.channel = c)).foldl Channel.release
          { s.chans.get c with
            cfg := (s.chans.get c).pendCfg.getD (s.chans.get c).cfg, pendCfg := none }
      else s.chans.get c) →
    b = (if s.driveState c = .ramping ∧ a.act.ramp ≠ none ∧ a.act.drive = .on then
        { a with act := a.act.step } else a) →
    (State.runBoundary forced quiet s).chans.get c =
      (if release = true ∧ autoEligible s c then { b with act := stoppedSet b.act } else b)
    ∧ (State.runBoundary forced quiet s).trips.get c =
      (if release = true ∧ autoEligible s c then { latch := false, cause := 0 } else s.trips.get c)
    ∧ (s.seq.unit = .running →
      (State.runBoundary forced quiet s).seq.latches.rampDone.getLsbD c.val =
        (s.seq.held.rampDone.getLsbD c.val
          || decide (s.driveState c = .ramping ∧ a.act.drive = .on
            ∧ ∃ r ∈ a.act.ramp, r.move a.act.level = r.target)))

/-- A boundary adds the level of every channel that was DRIVING or RAMPING just before it, under the mode and
threshold then in force; a change of accumulator mode adopted at the boundary clears the accumulator after the
addition. A boundary loads every used channel's compare value, floor of |level| × PERIOD / 10000, and a DIRECTIONAL
channel's side, from the level and the PERIOD after the boundary, and every channel's pins show its state after the
boundary (a safe pattern adopted there among them). A second boundary before the next drive clock takes the pins on from
what they showed before the first: the compare value of the empty frame between is not seen, so an output ACTIVE before
both, wanted still under the reference it had and wanted after both, stays ACTIVE with its wanted time. Model's choices
in what the pins show: log 3, 24, 29, 33. The additions
offer one ACCUM occurrence for each channel that overflows and one CHANNEL_EVENT for each that crosses. -/
def Obligations.BoundaryAddsAndLoads : Prop :=
  (∀ (forced quiet : Bool) (s : State) (c : ChanId) (g : Channel), g = s.chans.get c →
     (State.runBoundary forced quiet s).accs.get c =
       if (forced = true ∨ s.tb.rep = 0) ∧ (∃ p ∈ g.pendCfg, p.accMode ≠ g.cfg.accMode) then
         { value := 0, count := 0, sat := false, armed := true }
       else if s.driveState c = .driving ∨ s.driveState c = .ramping then
         (s.accs.get c).add g.cfg.accMode g.cfg.threshold g.act.level
       else s.accs.get c)
  ∧ (∀ (forced quiet : Bool) (s : State) (c : ChanId) (u : State) (v : Int),
       u = State.runBoundary forced quiet s → v = (u.chans.get c).act.level →
       ((s.chans.get c).mode ≠ .unused →
         (u.outs.get c).compare = v.natAbs * u.tb.active.period / 10000
         ∧ ((s.chans.get c).mode = .directional →
           (u.outs.get c).side = if 0 < v then .a else if v < 0 then .b else .none))
       ∧ ((s.chans.get c).mode = .unused →
         (u.outs.get c).compare = (s.outs.get c).compare ∧ (u.outs.get c).side = (s.outs.get c).side)
       ∧ Shows u c (if (s.chans.get c).mode = .unused then (s.outs.get c).resumed
           else (s.outs.get c).resumed.loaded (s.chans.get c).mode v u.tb.active.period) (u.outs.get c))
  ∧ (∀ (f q f' q' due : Bool) (s u v : State) (c : ChanId) (o w : Out), o = s.outs.get c → w = v.outs.get c →
       u = State.runBoundary f q s →
       v = State.runBoundary f' q' { u with tb := { u.tb with frameEndDue := due } } → o.prior = none →
       (s.chans.get c).mode ≠ .unused →
       w.compare = (v.chans.get c).act.level.natAbs * v.tb.active.period / 10000
       ∧ ∀ a b d, u.wants c o.ref o.side = some (a, b, d) →
         (a = true → o.pinA = .active → w.wantA = true →
           w.pinA = .active ∧ ((s.chans.get c).mode = .complement → w.wtA = o.wtA))
         ∧ (b = true → o.pinB = .active → w.wantB = true →
           w.pinB = .active ∧ ((s.chans.get c).mode = .complement → w.wtB = o.wtB)))
  ∧ (∀ (forced quiet : Bool) (s : State) (p : ChanId → Prop) (m : Half) (k : Nat),
     k = 5 ∧ p = (fun c => (s.driveState c = .driving ∨ s.driveState c = .ramping)
         ∧ (s.accs.get c).overflows (s.chans.get c).cfg.accMode (s.chans.get c).act.level = true)
       ∨ k = 4 ∧ p = (fun c => (s.driveState c = .driving ∨ s.driveState c = .ramping)
         ∧ (s.accs.get c).crosses (s.chans.get c).cfg.accMode (s.chans.get c).cfg.threshold
             (s.chans.get c).act.level = true) →
     MaskOf m p → (∀ n ∈ s.link.notices, n.occ.kind ≠ k) →
     (State.runBoundary forced quiet s).link.notices.filter (fun n => decide (n.occ.kind = k)) =
       if m ≠ 0 ∧ s.link.mask.getLsbD k = true then
         [{ occ := if k = 5 then .accum m else .channelEvent m
            count := (allChans.filter fun c => m.getLsbD c.val).length }]
       else [])

/-- The evaluation of a RUNNING unit at a boundary: the dwell counter has risen (release boundary); the winning
slot's target is entered with cause SLOT, or the current state stays; then every latch is replaced by the held
event, with this boundary's RAMP_DONE and crossings among them. An entry places its postings in the queue after the
countdown, raises the drop counter with a SEQ_DROP for each drop, and offers TRANSITION with the state left and the
BNUM after the boundary. A unit that is not RUNNING does not evaluate, and a HELD one still counts its dwell. The
order of a boundary's work is the model's reading (log 23). -/
def Obligations.BoundaryEvaluatesSequence : Prop :=
  ∀ (forced quiet : Bool) (s : State) (u : State) (d : Nat),
    u = State.runBoundary forced quiet s →
    d = (if forced = true ∨ s.tb.rep = 0 then min (s.seq.dwell + 1) 65535 else s.seq.dwell) →
    (s.seq.unit = .disabled → u.seq = s.seq)
    ∧ (s.seq.unit = .held → u.seq = { s.seq with dwell := d })
    ∧ (s.seq.unit = .running →
      u.seq.unit = .running ∧ u.seq.home = s.seq.home ∧ u.seq.table = s.seq.table
      ∧ u.seq.anySlots = s.seq.anySlots ∧ u.seq.held = .empty
      ∧ u.seq.latches.senseEdge = s.seq.held.senseEdge ∧ u.seq.latches.trigger = s.seq.held.trigger
      ∧ (∀ c : ChanId, u.seq.latches.accum.getLsbD c.val =
          (s.seq.held.accum.getLsbD c.val
            || decide ((s.driveState c = .driving ∨ s.driveState c = .ramping)
              ∧ (s.accs.get c).crosses (s.chans.get c).cfg.accMode (s.chans.get c).cfg.threshold
                  (s.chans.get c).act.level = true)))
      ∧ ∀ (cur : LineId) (p : State), s.seq.current = some cur → p = atEvaluation forced s →
        p.seq.dwell = d ∧
        match p.winner cur with
        | none => u.seq.current = some cur ∧ u.seq.dwell = d ∧ u.seq.gate = s.seq.gate
            ∧ u.seq.status = s.seq.status ∧ u.seq.drops = s.seq.drops ∧ u.queue = p.queue
            ∧ u.link.ofKind 3 = s.link.ofKind 3 ∧ u.link.ofKind 6 = s.link.ofKind 6
        | some l => u.seq.current = some l ∧ u.seq.dwell = 0 ∧ u.seq.gate = (s.seq.table.get l).gate
            ∧ u.seq.status = (s.seq.table.get l).status
            ∧ ∀ (n : Nat × Nat) (v : State), State.placeEntry l { p with seq := p.seq.inLine l } = (n, v) →
              u.queue = v.queue ∧ u.seq.drops = v.seq.drops ∧ u.link.ofKind 6 = v.link.ofKind 6
              ∧ u.link.ofKind 3 = (s.link.offer (.transition (some cur) l .slot u.tb.bnum)).ofKind 3)

/-- Which slot wins: the current state's own slots are tried in order, then the any-state slots in order; empty slots
and any-state slots whose target is the current state are passed over; the first that holds gives its target, and
where none holds no state is entered. A slot holds when its source is true with negate clear or false with it set;
the ten sources and what each reads. -/
def Obligations.FirstSlotThatHoldsWins : Prop :=
  (∀ (s : State) (cur : LineId) (own : Fin 4 → Slot) (other : Fin 6 → Slot) (counts : Fin 6 → Prop),
     own = (fun k => (s.seq.table.get cur).slots.get k) → other = (fun k => s.seq.anySlots.get k) →
     counts = (fun k => slotTrue s (other k) ∧ (other k).target.toNat ≠ cur.val) →
     (∀ (k : Fin 4) (l : LineId), slotTrue s (own k) → (∀ j < k, ¬slotTrue s (own j)) →
       (own k).target.toNat = l.val → s.winner cur = some l)
     ∧ (∀ (k : Fin 6) (l : LineId), (∀ j, ¬slotTrue s (own j)) → counts k → (∀ j < k, ¬counts j) →
       (other k).target.toNat = l.val → s.winner cur = some l)
     ∧ ((∀ j, ¬slotTrue s (own j)) → (∀ j, ¬counts j) → s.winner cur = none))
  ∧ (∀ (s : State) (t : Slot), s.slotHolds t = true ↔
       t.source ≠ 0 ∧ (t.negate = 0 ∧ sourceHolds s t.source.toNat t.index.toNat
         ∨ t.negate ≠ 0 ∧ ¬sourceHolds s t.source.toNat t.index.toNat))
  ∧ ∀ (s : State) (i : Nat),
      (s.sourceTrue 1 i = true ↔ s.sampler.cond.getLsbD i = true)
      ∧ (s.sourceTrue 2 i = true ↔ ∃ j : IlId, j.val = i ∧ isActive (s.ils.get j))
      ∧ (s.sourceTrue 3 i = true ↔ ∃ c : ChanId, c.val = i ∧ (s.senses.get c).filtered = .high)
      ∧ (s.sourceTrue 4 i = true ↔ ∃ l : LineId, s.seq.current = some l ∧ (s.seq.table.get l).dwell ≠ 0
          ∧ (s.seq.table.get l).dwell.toNat ≤ s.seq.dwell)
      ∧ (s.sourceTrue 5 i = true ↔ s.queue.entries = [])
      ∧ s.sourceTrue 6 i = s.seq.latches.rampDone.getLsbD i
      ∧ s.sourceTrue 7 i = s.seq.latches.accum.getLsbD i
      ∧ s.sourceTrue 8 i = s.seq.latches.senseEdge.getLsbD i
      ∧ s.sourceTrue 9 i = s.seq.latches.trigger.getLsbD i
      ∧ s.sourceTrue 10 i = true

/-- A line state is entered (R148): the current state, dwell 0, the record's gate mask and status levels; the events
are cleared unless the entry is made by an evaluation; then the record's entry postings one by one, which leave the
queue and the drop counter, and last TRANSITION. One entry posting that passed SEQ_ARM's checks (R42, R149): for a
tripped channel it is dropped; else it coalesces into the entry with its key; else it is appended where the queue has
room, with the HOLD test; else it is dropped. A drop raises the drop counter and offers SEQ_DROP. An entry made
outside a boundary gives every channel whose admission changes its new state at the pins at once: a channel excluded
is BLOCKED with both pins INACTIVE, a channel admitted again takes the state of its active set and shows its pattern
under the dead-time guards; the pins of the others stay. Model's choices in what the pins show: a reference keeps its
value while a frame end is due (log 3); wanted-time counters are 0 outside COMPLEMENT mode (log 24); outputs released
by FLOAT are wanted inactive with wanted-time counters 0 (log 29); what was shown before a boundary of the same drive
clock follows as well (log 33). -/
def Obligations.EnteringLineState : Prop :=
  (∀ (l : LineId) (cause : EntryCause) (s : State) (r : StateRec), r = s.seq.table.get l →
     ∀ (n m : Nat) (t p : State), s.enterLine l cause = ((n, m), t) →
       p = { s with seq := { s.seq with
         current := some l, dwell := 0, gate := r.gate, status := r.status
         latches := if cause = .slot then s.seq.latches else .empty
         held := if cause = .slot then s.seq.held else .empty } } →
       n + m = min r.count.toNat 4
       ∧ (∃ q, State.placePostings l (r.postings.data.take r.count.toNat) p = ((n, m), q)
         ∧ t = { q with link := q.link.offer (.transition s.seq.current l cause s.tb.bnum) })
       ∧ t.seq = { s.seq with
           current := some l, dwell := 0, gate := r.gate, status := r.status
           drops := if m = 0 then s.seq.drops else min (s.seq.drops + m) 255
           latches := if cause = .slot then s.seq.latches else .empty
           held := if cause = .slot then s.seq.held else .empty }
       ∧ t = { s with seq := t.seq, queue := t.queue, link := t.link }
       ∧ t.queue.holdAt = s.queue.holdAt ∧ t.queue.resumeAt = s.queue.resumeAt)
  ∧ (∀ (l : LineId) (s : State), State.placePostings l [] s = ((0, 0), s)
      ∧ ∀ (r : PostRec) (rs : List PostRec) (placed : Bool) (n m : Nat) (u v : State),
        s.placePosting l r = (placed, u) → State.placePostings l rs u = ((n, m), v) →
        State.placePostings l (r :: rs) s = (if placed = true then ((n + 1, m), v) else ((n, m + 1), v)))
  ∧ (∀ (l : LineId) (r : PostRec) (s : State) (p : Posting) (d : Nat) (dropped : State), s.checkEntryPosting r = .ok p →
       d = min (s.seq.drops + 1) 255 →
       dropped = { s with seq := { s.seq with drops := d }, link := s.link.offer (.seqDrop l d) } →
       s.placePosting l r =
         if s.latched p.channel = true then (false, dropped)
         else if ∃ e ∈ s.queue.entries, e.key = p.key then
           (true, { s with queue := { s.queue with entries := afterPosting .sequence s.queue.entries p } })
         else if s.queue.entries.length < 32 then
           (true, { s with
             queue := { s.queue with
               entries := s.queue.entries ++
                 [{ channel := p.channel, setpoint := p.setpoint, remaining := p.delay, origin := .sequence }]
               hold := s.queue.hold || decide (s.queue.holdAt ≤ s.queue.entries.length + 1) }
             link := if s.queue.hold = false ∧ s.queue.holdAt ≤ s.queue.entries.length + 1 then
                 s.link.offer (.flow true) else s.link })
         else (false, dropped))
  ∧ (∀ (l : LineId) (cause : EntryCause) (s u : State) (n : Nat × Nat), s.enterOutside l cause = (n, u) →
       s.ctl.mode = .run →
       (∃ v, s.enterLine l cause = (n, v) ∧ u = { v with outs := u.outs })
       ∧ ∀ c : ChanId,
         (s.seq.gate.getLsbD c.val = (s.seq.table.get l).gate.getLsbD c.val → u.outs.get c = s.outs.get c)
         ∧ (s.seq.gate.getLsbD c.val ≠ (s.seq.table.get l).gate.getLsbD c.val →
           Shows u c (s.outs.get c) (u.outs.get c))
         ∧ ((s.chans.get c).mode ≠ .unused → (s.trips.get c).latch = false →
           (s.seq.gate.getLsbD c.val = true → (s.seq.table.get l).gate.getLsbD c.val = false →
             u.driveState c = .blocked ∧ (u.outs.get c).pinA = .inactive ∧ (u.outs.get c).pinB = .inactive)
           ∧ (s.seq.gate.getLsbD c.val = false → (s.seq.table.get l).gate.getLsbD c.val = true →
             u.driveState c = commandedState (s.chans.get c).act)))

/-! ### Check steps, compare matches, expiries, ticks -/

/-- A frame boundary of a running check: below the step's frames it is counted in the position; at the step's last
one the step is tested, a failure is counted, marked and recorded while the log has room, and the next step of the
visit begins, or the first step of the next visit whose channel is not tripped, each tripped one before it counted,
marked and recorded as SKIPPED, or, with none left, the check completes with PASS or FAIL in SETUP. A PULSE step that
begins loads the compare value and side of its channel from plus or minus the pulse level; nothing else is loaded, so
they last as long as the step. Every channel shows the pattern of its state at the pins (model's choices: log 3, 24, 29, 33).
CHECK_STEP_END is that last boundary and has no effect before it (log 1). Model's choice in when a reply is built: log 13. -/
def Obligations.CheckBoundaryMovesOn : Prop :=
  ∀ (s : State) (q : CheckParams) (p : Position) (c : ChanId) (n : Nat) (bad : Bool) (f : Failure) (k : CheckEngine),
    s.ctl.mode = .check → s.tb.run = .running → s.check.params = some q → s.check.position = some p →
    c = visitChannel q.order p.place →
    n = (if p.pass = .static then q.settle else q.pulse) →
    bad = (if p.step = .pulsePos ∨ p.step = .pulseNeg then decide (s.check.edges < q.pulse)
      else decide ((s.senses.get c).filtered ≠
        if p.step = .aOn then (s.chans.get c).cfg.expA
        else if p.step = .bOn then (s.chans.get c).cfg.expB else (s.chans.get c).cfg.expIdle)) →
    f = { pass := p.pass, channel := c, step := .step p.step, index := min (s.check.frameIndex + 1) 65535
          expected := if p.step = .pulsePos ∨ p.step = .pulseNeg then q.pulse
            else if p.step = .aOn then (s.chans.get c).cfg.expA.code
            else if p.step = .bOn then (s.chans.get c).cfg.expB.code else (s.chans.get c).cfg.expIdle.code
          observed := if p.step = .pulsePos ∨ p.step = .pulseNeg then s.check.edges
            else (s.senses.get c).filtered.code } →
    k = (if bad = true then { s.check with
          frameIndex := min (s.check.frameIndex + 1) 65535
          failures := min (s.check.failures + 1) 65535
          failed := s.check.failed ||| oneChan c
          log := if s.check.log.length < 6 then s.check.log ++ [f] else s.check.log }
      else { s.check with frameIndex := min (s.check.frameIndex + 1) 65535 }) →
    (exec .checkStepEnd s = if n ≤ p.frames + 1 then exec .frameEnd s else .next s)
    ∧ ∃ t, exec .frameEnd s = .next t
      ∧ (p.frames + 1 < n →
        Became { s with
          tb := { s.tb with divider := 0, counter := 0, dir := .up, frameEndDue := false }
          check := { s.check with frameIndex := min (s.check.frameIndex + 1) 65535
                                  position := some { p with frames := p.frames + 1 } }
          outs := t.outs } t
        ∧ ∀ d : ChanId, Shows t d (s.outs.get d) (t.outs.get d))
      ∧ (n ≤ p.frames + 1 →
        (∀ st, stepAfter p.step (stepsOf p.pass (s.chans.get c).mode) = some st →
          Became { s with
            tb := { s.tb with divider := 0, counter := 0, dir := .up, frameEndDue := false }
            check := { k with position := some { pass := p.pass, place := p.place, step := st, frames := 0 }
                              edges := if st = .pulsePos ∨ st = .pulseNeg then 0 else k.edges }
            outs := t.outs } t
          ∧ t.driveState c = .checking
          ∧ ∀ d : ChanId, Shows t d (s.stepOut q c st d) (t.outs.get d))
        ∧ ∀ (skipped : List (Pass × Nat)) (e : CheckEngine),
          stepAfter p.step (stepsOf p.pass (s.chans.get c).mode) = none →
          (∀ w ∈ skipped, (s.trips.get (visitChannel q.order w.2)).latch = true) →
          e = skipped.foldl (skipOne q) k →
        (∀ v vs st sts, q.visitsAfter p = skipped ++ v :: vs →
          (s.trips.get (visitChannel q.order v.2)).latch = false →
          stepsOf v.1 (s.chans.get (visitChannel q.order v.2)).mode = st :: sts →
          Became { s with
            tb := { s.tb with divider := 0, counter := 0, dir := .up, frameEndDue := false }
            check := { e with position := some { pass := v.1, place := v.2, step := st, frames := 0 }
                              edges := if st = .pulsePos ∨ st = .pulseNeg then 0 else e.edges }
            outs := t.outs } t
          ∧ t.driveState (visitChannel q.order v.2) = .checking
          ∧ ∀ d : ChanId, Shows t d (s.stepOut q (visitChannel q.order v.2) st d) (t.outs.get d))
        ∧ (q.visitsAfter p = skipped →
          Became { s with
            tb := { s.tb with divider := 0, counter := 0, dir := .up, run := .stopped, frameEndDue := false }
            check := { e with running := false, position := none, reason := .none
                              status := if e.failures = 0 then .pass else .fail }
            ctl := { s.ctl with mode := .setup }
            trips := s.trips.mapId fun d tr =>
              if autoEligible s d then { latch := false, cause := 0 } else tr
            chans := s.chans.mapId fun d ch =>
              if autoEligible s d then { ch with act := stoppedSet ch.act } else ch
            outs := t.outs
            link := s.link.offer
              (.checkDone (if e.failures = 0 then .pass else .fail) .none e.failures) } t
          ∧ ∀ d : ChanId, Shows t d (s.rearmedOut d) (t.outs.get d)))

/-- What a check visits and does there (R158): the channels of its mask, ASCENDING from 0 to 15 or SCRAMBLED 3, 8, 13,
2, 7, 12, 1, 6, 11, 0, 5, 10, 15, 4, 9, 14, once in each pass it runs, the STATIC pass before the PULSE pass; the
steps of a visit by pass and mode, in order; and what comes after a step and after a visit. -/
def Obligations.CheckVisitsAndSteps : Prop :=
  (∀ (q : CheckParams) (order : List ChanId),
     order = (match q.order with
       | .ascending => [0, 1, 2, 3, 4, 5, 6, 7, 8, 9, 10, 11, 12, 13, 14, 15]
       | .scrambled => [3, 8, 13, 2, 7, 12, 1, 6, 11, 0, 5, 10, 15, 4, 9, 14]) →
     ∀ each : Pass → List (Pass × ChanId),
       each = (fun p => (order.filter fun c => q.mask.getLsbD c.val).map fun c => (p, c)) →
       q.visits.map (fun v => (v.1, visitChannel q.order v.2)) =
         match q.passes with
         | .static => each .static
         | .pulse => each .pulse
         | .both => each .static ++ each .pulse)
  ∧ (stepsOf .static .single = [.idle, .aOn] ∧ stepsOf .static .complement = [.idle, .aOn, .bOn]
     ∧ stepsOf .static .directional = [.idle, .aOn, .bOn] ∧ stepsOf .pulse .single = [.pulsePos]
     ∧ stepsOf .pulse .complement = [.pulsePos] ∧ stepsOf .pulse .directional = [.pulsePos, .pulseNeg])
  ∧ (∀ (p : Pass) (m : ChanMode) (before after : List CheckStep) (st : CheckStep),
       stepsOf p m = before ++ st :: after → stepAfter st (stepsOf p m) = after.head?)
  ∧ ∀ (q : CheckParams) (p : Position) (before after : List (Pass × Nat)),
      q.visits = before ++ (p.pass, p.place) :: after → q.visitsAfter p = after

/-- COMPARE_MATCH completes in every state. While STOPPED it changes nothing. While RUNNING it sets one channel's reference
from the counter, the wanted levels of a channel that drives, or is CHECKING in a PULSE step, follow it by its mode, and
its outputs follow them: one not wanted is INACTIVE, a wanted ACTIVE one stays ACTIVE, and a wanted one becomes ACTIVE
exactly when the partner guard allows it and, in COMPLEMENT mode, its wanted time has reached the dead-time. Nothing
else changes. Model's choices: a reference whose frame end is due keeps its value (log 3); in what the pins show: log
24, 29, 33. -/
def Obligations.CompareMatchMovesReference : Prop :=
  ∀ (ch : ChanId) (s : State) (g : Channel) (o : Out), g = s.chans.get ch → o = s.outs.get ch →
    (s.tb.run = .stopped → exec (.compareMatch ch) s = .next s)
    ∧ (s.tb.run = .running → ∃ u, exec (.compareMatch ch) s = .next { s with outs := s.outs.set ch u }
      ∧ Shows { s with outs := s.outs.set ch u } ch o u
      ∧ (s.tb.frameEndDue = true → u.ref = o.ref)
      ∧ (s.tb.frameEndDue = false → (u.ref = true ↔
          if s.tb.active.align = .centred ∧ s.tb.dir = .down then s.tb.counter ≤ o.compare
          else s.tb.counter < o.compare))
      ∧ (s.driveState ch = .driving ∨ s.driveState ch = .ramping
          ∨ s.driveState ch = .checking ∧ (∃ p, s.check.position = some p ∧ (p.step = .pulsePos ∨ p.step = .pulseNeg)) →
        (g.mode = .single → u.wantA = u.ref ∧ u.wantB = false)
        ∧ (g.mode = .complement → u.wantA = u.ref ∧ u.wantB = !u.ref)
        ∧ (g.mode = .directional →
          u.wantA = (u.ref && decide (o.side = .a)) ∧ u.wantB = (u.ref && decide (o.side = .b)))
        ∧ (u.pinA = .active ↔ u.wantA = true ∧ (o.pinA = .active
            ∨ (o.pinB = .active → u.wantB = false) ∧ g.deadTime ≤ o.offB
              ∧ (g.mode = .complement → g.deadTime ≤ o.wtA)))
        ∧ (u.pinB = .active ↔ u.wantB = true ∧ (o.pinB = .active
            ∨ u.pinA ≠ .active ∧ g.deadTime ≤ o.offA ∧ (g.mode = .complement → g.deadTime ≤ o.wtB)))
        ∧ (u.pinA ≠ .active → u.pinA = .inactive) ∧ (u.pinB ≠ .active → u.pinB = .inactive))
      ∧ (u.wantA = false → u.pinA ≠ .active) ∧ (u.wantB = false → u.pinB ≠ .active)
      ∧ (u.pinA = .active → o.pinA ≠ .active → u.pinB ≠ .active ∧ g.deadTime ≤ o.offB
        ∧ (s.ctl.mode = .run → g.mode = .complement →
            s.driveState ch = .driving ∨ s.driveState ch = .ramping → g.deadTime ≤ o.wtA))
      ∧ (u.pinB = .active → o.pinB ≠ .active → u.pinA ≠ .active ∧ g.deadTime ≤ u.offA
        ∧ (s.ctl.mode = .run → g.mode = .complement →
            s.driveState ch = .driving ∨ s.driveState ch = .ramping → g.deadTime ≤ o.wtB)))

/-- An expiry makes a held-back output ACTIVE: output A, wanted and not ACTIVE, beside a partner that is not ACTIVE
and whose off-time has reached the dead-time, and whose own wanted time has reached it where the wanted-time delay
applies. Before that time the command has no effect; WANTED_TIME_EXPIRY has none outside COMPLEMENT mode, and neither
has one while a frame end is due (log 1, 3). The same holds of output B. -/
def Obligations.ExpiriesRaiseOutputs : Prop :=
  ∀ (ch : ChanId) (s : State) (g : Channel) (o : Out), g = s.chans.get ch → o = s.outs.get ch →
    (s.tb.frameEndDue = true → ∀ x,
      exec (.deadTimeExpiry ch x) s = .next s ∧ exec (.wantedTimeExpiry ch x) s = .next s)
    ∧ (g.mode ≠ .complement → ∀ x, exec (.wantedTimeExpiry ch x) s = .next s)
    ∧ (s.tb.frameEndDue = false → o.refresh s.tb = o → o.take g.mode (s.pattern ch o) = o →
    (o.wantA = true → o.pinA ≠ .active →
      (o.pinB ≠ .active ∧ g.deadTime ≤ o.offB ∧ ((s.pattern ch o).delayed = true → g.deadTime ≤ o.wtA) →
        exec (.deadTimeExpiry ch .a) s
            = .next { s with outs := s.outs.set ch { o with pinA := .active, offA := 0 } }
        ∧ (g.mode = .complement → exec (.wantedTimeExpiry ch .a) s
            = .next { s with outs := s.outs.set ch { o with pinA := .active, offA := 0 } }))
      ∧ (¬(o.pinB ≠ .active ∧ g.deadTime ≤ o.offB
          ∧ ((s.pattern ch o).delayed = true → g.deadTime ≤ o.wtA)) →
        exec (.deadTimeExpiry ch .a) s = .next s ∧ exec (.wantedTimeExpiry ch .a) s = .next s))
    ∧ (o.wantB = true → o.pinB ≠ .active →
      (o.pinA ≠ .active ∧ g.deadTime ≤ o.offA ∧ ((s.pattern ch o).delayed = true → g.deadTime ≤ o.wtB) →
        exec (.deadTimeExpiry ch .b) s
            = .next { s with outs := s.outs.set ch { o with pinB := .active, offB := 0 } }
        ∧ (g.mode = .complement → exec (.wantedTimeExpiry ch .b) s
            = .next { s with outs := s.outs.set ch { o with pinB := .active, offB := 0 } }))
      ∧ (¬(o.pinA ≠ .active ∧ g.deadTime ≤ o.offA
          ∧ ((s.pattern ch o).delayed = true → g.deadTime ≤ o.wtB)) →
        exec (.deadTimeExpiry ch .b) s = .next s ∧ exec (.wantedTimeExpiry ch .b) s = .next s)))

/-- TICK is the drive clocks up to and including the one that completes a tick, each but the last with what it makes
due taken on it (log 4); while STOPPED nothing. It is one tick of the frame counter by EDGE or CENTRED counting: in
RUN always, in CHECK where no sample falls within it. Where no sample falls within it, it changes nothing but the
Timebase, the outputs and the sample clock. Model's choices too: a due sample reads the held levels of the input pins
(log 5), a sample and a frame end due together are taken in a free order (log 6), all the sample's events on one side
of the frame end (log 35), wanted-time counters are 0 outside
COMPLEMENT mode (log 24), and what was shown before a boundary lasts until the next drive clock (log 33). -/
def Obligations.TickCountsTheFrame : Prop :=
  ∀ s : State,
    (s.tb.run = .stopped → exec .tick s = .next s)
    ∧ (s.tb.run = .running → ∃ b c t, exec .tick s = .next t ∧ DueTaken s b
      ∧ Clocks (b.tb.active.prescale - b.tb.divider) b c ∧ Clocked c t)
    ∧ (s.tb.run = .running → s.tb.frameEndDue = false →
      s.ctl.mode = .run ∨ s.ctl.mode = .check
        ∧ s.sampler.phase + (s.tb.active.prescale - s.tb.divider) < 16 →
      ∃ t, exec .tick s = .next t ∧ Ticked s.tb t.tb
        ∧ t.accs = s.accs ∧ t.check = s.check ∧ t.ctl = s.ctl
        ∧ (s.sampler.phase + (s.tb.active.prescale - s.tb.divider) < 16 →
          t = { s with tb := t.tb, outs := t.outs, sampler :=
            { s.sampler with
              phase := s.sampler.phase + (s.tb.active.prescale - s.tb.divider) + 1 } }))

/-! ### The link -/

/-- The receiver: SYNC opens a frame; a LEN above 60 breaks it; LEN, KIND, TAG, body and the low CRC byte are kept;
the last CRC byte completes the frame or counts a CRC error. In STARTING every byte is lost. FRAME_COMPLETE and the
LEN form of FRAMING_ERROR are the byte they carry where the receiver awaits it, and nothing elsewhere (log 19). A
bad stop bit and a gap above the limit each discard the frame being received with a framing error counted, and do
nothing while HUNTING or in STARTING. -/
def Obligations.ReceiverTakesBytes : Prop :=
  (∀ (b : Byte) (s : State),
     (s.ctl.mode = .starting → exec (.byteReceived b) s = .next s)
     ∧ (s.ctl.mode ≠ .starting →
       (s.link.rx = .hunting → exec (.byteReceived b) s =
         .next (if b = 0xC3 then { s with link := { s.link with rx := .inFrame [] } } else s))
       ∧ (s.link.rx = .inFrame [] → exec (.byteReceived b) s =
         .next { s with link :=
           if 60 < b.toNat then
             { s.link with rx := .hunting, framingErrors := min (s.link.framingErrors + 1) 65535 }
           else { s.link with rx := .inFrame [b] } })
       ∧ ∀ (len : Byte) (rest : List Byte), s.link.rx = .inFrame (len :: rest) →
         (rest.length + 2 ≠ len.toNat + 5 → exec (.byteReceived b) s =
           .next { s with link := { s.link with rx := .inFrame (len :: rest ++ [b]) } })
         ∧ (rest.length + 2 = len.toNat + 5 →
           (crcOf ((len :: rest).take (len.toNat + 3)) ≠ halfAt (len :: rest ++ [b]) (len.toNat + 3) →
             exec (.byteReceived b) s = .next { s with link :=
               { s.link with rx := .hunting, crcErrors := min (s.link.crcErrors + 1) 65535 } })
           ∧ (crcOf ((len :: rest).take (len.toNat + 3)) = halfAt (len :: rest ++ [b]) (len.toNat + 3) →
             exec (.byteReceived b) s = .next
               (({ s with link := { s.link with rx := .hunting } } : State).deliver
                 (byteAt rest 0) (byteAt rest 1) ((rest.drop 2).take len.toNat)))))
     ∧ exec (.frameComplete b) s =
       (match s.link.rx with
        | .inFrame (len :: rest) =>
          if rest.length + 2 = len.toNat + 5 then exec (.byteReceived b) s else .next s
        | _ => .next s)
     ∧ exec (.framingError (.lenAbove b)) s =
       if s.link.rx = .inFrame [] ∧ 60 < b.toNat then exec (.byteReceived b) s else .next s)
  ∧ (∀ (c : Instr) (s : State), c = .framingError .badStop ∨ c = .interByteGap →
       exec c s =
         if s.ctl.mode = .starting ∨ s.link.rx = .hunting then .next s
         else .next { s with link :=
           { s.link with rx := .hunting, framingErrors := min (s.link.framingErrors + 1) 65535 } })

/-- FRAME_SENT: after a notice a reply that waits is begun first, else the oldest notice; after a reply the request
leaves its place, the oldest notice is begun first, and the decoder takes the oldest waiting request; an idle
transmitter has nothing to end. (The end of the RESTART reply is a reset: ResetsGiveEveryUnitItsValues.) Where a request and a
notice wait beside a sent reply, which goes first is free (log 8): the oldest notice is begun and the request taken
beside it, or the request is taken first and then the oldest notice pending is begun, or the new reply where the
request has left none. A reply that is begun and not built yet is built then, with the STATUS byte of then and OVERRUN
cleared; one that is not begun may be built now or later (log 13). -/
def Obligations.FrameSentChoosesNext : Prop :=
  ∀ s : State,
    (s.link.tx = .idle → exec .frameSent s = .next s)
    ∧ (∀ f, s.link.tx = .sending f .notice →
      (∀ v, s.link.service = some v → ∃ w r l, l = s.link.builtWith s.statusByte ∧ l.service = some w
        ∧ w.reply = some r
        ∧ exec .frameSent s = .next { s with link := { l with lastFrame := .notice, tx := .sending r .reply } })
      ∧ (s.link.service = none → exec .frameSent s = .next { s with link :=
        match s.link.notices with
        | n :: ns => { s.link with lastFrame := .notice, tx := .sending n.frame .notice, notices := ns }
        | [] => { s.link with lastFrame := .notice, tx := .idle } }))
    ∧ (∀ f, s.link.tx = .sending f .reply → s.link.restarting = false →
      (s.link.waiting = [] → exec .frameSent s = .next { s with link :=
        match s.link.notices with
        | n :: ns =>
          { s.link with service := none, lastFrame := .reply, tx := .sending n.frame .notice, notices := ns }
        | [] => { s.link with service := none, lastFrame := .reply, tx := .idle } })
      ∧ (∀ w ws, s.link.waiting = w :: ws →
        (s.link.notices = [] → exec .frameSent s = .next (State.kick (State.answer w { s with link :=
          { s.link with service := none, lastFrame := .reply, tx := .idle, waiting := ws } })))
        ∧ (∃ t v, exec .frameSent s = .next t ∧ t.link.service = some v ∧ v.request = w
          ∧ (∀ r, v.reply = some r → r.tag = w.tag) ∧ t.link.waiting = ws)
        ∧ ∀ n ns free, s.link.notices = n :: ns → free = { s with
            freeCount := s.freeCount + 1
            link := { s.link with service := none, lastFrame := .reply, tx := .idle, waiting := ws } } →
          exec .frameSent s = .next (State.kick (State.answer w { free with link := { free.link with
            tx := .sending n.frame .notice, notices := ns } }))
          ∨ ∃ a l, a = State.answer w free ∧ l = a.link.builtWith a.statusByte
            ∧ match a.link.notices with
              | m :: ms => ∃ k d, (d = a.link ∨ d = l) ∧ exec .frameSent s = .next { a with
                  freeCount := k, link := { d with tx := .sending m.frame .notice, notices := ms } }
              | [] => ∃ v r, l.service = some v ∧ v.reply = some r
                  ∧ exec .frameSent s = .next { a with link := { l with tx := .sending r .reply } }))

/-- A request that arrives while another is in service (or RESTART has been taken) waits behind at most 3 others; a
fifth is discarded, raises the overrun count and sets OVERRUN; in STARTING it is lost (log 10, 11). RESTART is
answered OK at once, and the decoder then takes no further request. Model's choice in when a reply is built: log 13. -/
def Obligations.RequestsWaitOrAreLost : Prop :=
  (∀ (c : Instr) (f : Frame) (s : State), requestFrame c = some f →
     (s.ctl.mode = .starting → exec c s = .next s)
     ∧ (s.ctl.mode ≠ .starting → s.link.service ≠ none ∨ s.link.restarting = true →
       ∃ t, exec c s = .next t
         ∧ (s.link.waiting.length < 4 →
           Became { s with link := { s.link with waiting := s.link.waiting ++ [f] } } t)
         ∧ (4 ≤ s.link.waiting.length →
           Became { s with link :=
             { s.link with overruns := min (s.link.overruns + 1) 65535, overrun := true } } t)))
  ∧ (∀ (tag : Byte) (s : State), s.ready = true →
       ∃ t, exec (.restart tag []) s = .next t
         ∧ Taken (.restart tag []) .ok [] { s with link := { s.link with restarting := true } } t
         ∧ t.link.restarting = true ∧ t.ready = false)

/-- A notice absorbs, is appended, or is discarded: a kind outside the mask leaves no trace; a pending notice of the
kind takes the occurrence with its count raised to at most 255, channel masks ORed and every other field the
latest; otherwise a notice with count 1 joins at the tail. READY is always appended. -/
def Obligations.OccurrencesMergeByKind : Prop :=
  ∀ (l : Link) (o : Occurrence),
    (o.kind = 0 → l.offer o = { l with notices := l.notices ++ [{ occ := o, count := 1 }] })
    ∧ (o.kind ≠ 0 → l.mask.getLsbD o.kind = false → l.offer o = l)
    ∧ (o.kind ≠ 0 → l.mask.getLsbD o.kind = true →
      ((∀ n ∈ l.notices, n.occ.kind ≠ o.kind) →
        l.offer o = { l with notices := l.notices ++ [{ occ := o, count := 1 }] })
      ∧ ((∃ n ∈ l.notices, n.occ.kind = o.kind) → l.offer o = { l with notices := l.notices.map fun n =>
          if n.occ.kind = o.kind then
            { count := min (n.count + 1) 255
              occ := match n.occ, o with
                | .trip _ x _, .trip j y r => .trip j (x ||| y) r
                | .channelEvent x, .channelEvent y => .channelEvent (x ||| y)
                | .accum x, .accum y => .accum (x ||| y)
                | _, o => o }
          else n }))

/-! ### The decoder and its requests -/

/-- The decoder's checks in their order, for every request command and every BAD_KIND: unknown kind, length, mode,
setup order, locks; the first that fails refuses the request with nothing but the reply.
Model's choice in when a reply is built: log 13. -/
def Obligations.DecoderRefusesInOrder : Prop :=
  ∀ (c : Instr) (f : Frame) (s : State), requestFrame c = some f → s.ready = true →
    ∃ t, exec c s = .next t
      ∧ (rowOf f.kind = none → Taken c .badKind [] s t)
      ∧ ∀ r, rowOf f.kind = some r →
        (¬r.lengthOk f.body → Taken c .badLength [] s t)
        ∧ (r.lengthOk f.body → ¬r.modeOk s.ctl.mode → Taken c .refusedState [] s t)
        ∧ (r.lengthOk f.body → r.modeOk s.ctl.mode → ¬r.orderOk s.ctl → Taken c .order [] s t)
        ∧ (r.lengthOk f.body → r.modeOk s.ctl.mode → r.orderOk s.ctl → r.locked s.ctl →
            Taken c .locked [] s t)

/-- The STATUS byte of every reply: mode in bits 0 and 1, then HOLD, trip, OVERRUN, sequence RUNNING and notice
pending in bits 2 to 6. -/
def Obligations.StatusByteShowsSixFacts : Prop :=
  ∀ s : State, s.ctl.mode ≠ .starting →
    ((s.statusByte.extractLsb' 0 2).toNat =
      match s.ctl.mode with
      | .starting => 0
      | .setup => 1
      | .run => 2
      | .check => 3)
    ∧ s.statusByte.getLsbD 2 = s.queue.hold
    ∧ (s.statusByte.getLsbD 3 = true ↔ ∃ c : ChanId, (s.trips.get c).latch = true)
    ∧ s.statusByte.getLsbD 4 = s.link.overrun
    ∧ (s.statusByte.getLsbD 5 = true ↔ s.seq.unit = .running)
    ∧ (s.statusByte.getLsbD 6 = true ↔ s.link.notices ≠ [])
    ∧ s.statusByte.getLsbD 7 = false

/-- IDENTIFY and STATUS report their fields and have no effect beyond the reply, in every mode that takes requests
and under every lock. Model's choice in when a reply is built: log 13. -/
def Obligations.IdentifyAndStatusReport : Prop :=
  ∀ (tag : Byte) (s : State) (trips : Half) (ils : Byte), s.ready = true →
    MaskOf trips (fun c => (s.trips.get c).latch = true) →
    (∀ i : IlId, ils.getLsbD i.val = true ↔ isActive (s.ils.get i)) → ils.toNat < 16 →
    (∃ t, exec (.identify tag []) s = .next t
      ∧ Taken (.identify tag []) .ok [0xD5, 0x4E, 0x6D, 0x71, 0x01, 16, 32, 10, 46] s t)
    ∧ ∃ t, exec (.status tag []) s = .next t
      ∧ Taken (.status tag []) .ok
        ([natByte s.ctl.mode.code,
          flagsByte [s.ctl.layoutOk, s.ctl.timebaseOk, s.queue.hold, s.ctl.readLock, s.ctl.writeLockConfig,
            s.ctl.writeLockAll]]
        ++ wordBytes s.tb.bnum ++ [natByte s.queue.entries.length] ++ halfBytes trips
        ++ [ils, natByte s.seq.unit.code,
          match s.seq.current with
          | some l => natByte l.val
          | none => 0xFF]
        ++ natHalf s.seq.dwell ++ [natByte s.seq.drops, if s.check.running = true then 1 else 0]
        ++ natHalf s.link.framingErrors ++ natHalf s.link.crcErrors ++ natHalf s.link.overruns) s t

/-- LAYOUT_READ returns the layout in force in the form of the LAYOUT body, then layout_ok, and changes no state; of
the reset layout it is zeros. Model's choice in when a reply is built: log 13. -/
def Obligations.LayoutReadReturnsLayout : Prop :=
  ∀ (tag : Byte) (s : State), s.ready = true → s.ctl.readLock = false →
    ∃ t fields, exec (.layoutRead tag []) s = .next t ∧ Taken (.layoutRead tag []) .ok fields s t
      ∧ fields.length = 46
      ∧ (∀ c : ChanId,
        byteAt fields (2 * c.val) = natByte ((s.chans.get c).mode.code + 4 * (s.chans.get c).member.toNat
          + 64 * (s.chans.get c).role.code)
        ∧ byteAt fields (2 * c.val + 1) = natByte ((s.chans.get c).deadTime / 4))
      ∧ (∀ i : IlId,
        byteAt fields (32 + 3 * i.val) = (if (s.ils.get i).polarity = .activeHigh then 1 else 0)
        ∧ byteAt fields (32 + 3 * i.val + 1) = natByte (s.ils.get i).filter
        ∧ byteAt fields (32 + 3 * i.val + 2) = (if (s.ils.get i).rearm = .auto then 1 else 0))
      ∧ byteAt fields 44 = natByte s.home.filter
      ∧ byteAt fields 45 = (if s.ctl.layoutOk = true then 1 else 0)
      ∧ (s.chans = State.reset.chans → s.ils = State.reset.ils → s.home = State.reset.home →
          s.ctl.layoutOk = false → fields = List.replicate 46 0)

/-- CONFIG_READ, TABLE_READ, QUERY_QUEUE and CHECK_RESULT report as things stand and change nothing; a channel, a
section, a state number or a start position out of range is refused with BAD_ARG. Two conventions are the model's
choice: an entry of QUERY_QUEUE has 8 bytes, those of the fields listed (log 15); CHECK_RESULT sends position, edge
count and check frame index as 0 while no position applies, and the edge count as 0 in a STATIC step (log 26). A failure
record has 5 bytes: channel in bits 0 to 3, step in bits 4 to 6 and pass in bit 7; expected; observed; check frame
index. Model's choice in when a reply is built: log 13. -/
def Obligations.ReadingRequestsChangeNothing : Prop :=
  ∀ (tag b d : Byte) (s : State), s.ready = true →
    (s.ctl.readLock = false → ∃ t, exec (.configRead tag [b]) s = .next t
      ∧ (16 ≤ b.toNat → Taken (.configRead tag [b]) .badArg [] s t)
      ∧ ∀ c : ChanId, b.toNat = c.val → Taken (.configRead tag [b]) .ok
          (b :: (s.chans.get c).cfg.bytes ++
            match (s.chans.get c).pendCfg with
            | some g => 1 :: g.bytes
            | none => List.replicate 19 0) s t)
    ∧ (s.ctl.readLock = false → ∃ t, exec (.tableRead tag [b, d]) s = .next t
      ∧ (∀ l : LineId, b = 0 → d.toNat = l.val →
          Taken (.tableRead tag [b, d]) .ok (StateRec.bytes l (s.seq.table.get l)) s t)
      ∧ (b = 1 → Taken (.tableRead tag [b, d]) .ok (anySectionBytes s.seq.anySlots) s t)
      ∧ (1 < b.toNat ∨ b = 0 ∧ 10 ≤ d.toNat → Taken (.tableRead tag [b, d]) .badArg [] s t))
    ∧ (∃ t, exec (.queryQueue tag [b]) s = .next t
      ∧ (31 < b.toNat → Taken (.queryQueue tag [b]) .badArg [] s t)
      ∧ ∀ shown : List Entry, b.toNat ≤ 31 → shown = (s.queue.entries.drop b.toNat).take 6 →
        Taken (.queryQueue tag [b]) .ok
          ([natByte s.queue.entries.length, if s.queue.hold = true then 1 else 0, natByte s.queue.holdAt,
            natByte s.queue.resumeAt] ++ wordBytes s.tb.bnum ++ [natByte shown.length]
          ++ (shown.zipIdx b.toNat).flatMap fun p =>
            [natByte p.2, natByte (p.1.channel.val + 16 * p.1.setpoint.kind.code
              + 64 * (if p.1.origin = .sequence then 1 else 0))]
            ++ p.1.setpoint.valueBytes ++ p.1.setpoint.extraBytes ++ natHalf p.1.remaining) s t)
    ∧ ∃ t, exec (.checkResult tag []) s = .next t
      ∧ Taken (.checkResult tag []) .ok
        ([if s.check.running = true then 1 else 0, natByte s.check.status.code,
          natByte s.check.reason.code, natByte s.check.reason.ilCode]
        ++ (match s.check.params with
            | some q => 1 :: q.bytes
            | none => List.replicate 9 0)
        ++ natHalf s.check.failures ++ halfBytes s.check.failed
        ++ (match s.check.params, s.check.position with
            | some q, some p =>
              [if p.pass = .static then 0 else 1, natByte (visitChannel q.order p.place).val,
                match p.step with
                | .idle => 0
                | .aOn => 1
                | .bOn => 2
                | .pulsePos => 3
                | .pulseNeg => 4,
                natByte p.frames, if p.step = .pulsePos ∨ p.step = .pulseNeg then natByte s.check.edges else 0]
              ++ natHalf s.check.frameIndex
            | _, _ => List.replicate 7 0)
        ++ [natByte s.check.log.length] ++ s.check.log.flatMap fun f =>
          [natByte (f.channel.val
            + 16 * (match f.step with
              | .step .idle => 0
              | .step .aOn => 1
              | .step .bOn => 2
              | .step .pulsePos => 3
              | .step .pulseNeg => 4
              | .skipped => 5)
            + 128 * (if f.pass = .static then 0 else 1)),
            natByte f.expected, natByte f.observed] ++ natHalf f.index) s t

/-- QUERY_CHANNEL reports the channel with its trip, sense level and accumulator, and the projected set where it is
asked for, and then clears the clamped flag alone; a channel above 15 or an undefined flag is refused. The projected
set: the active set with every pending entry of the channel applied in ascending remaining count (queue order where
equal), and any ramp then taken as complete. QUERY_CAPTURE reports the capture state of a channel and then clears
the capture flag alone. Model's choice in when a reply is built: log 13. -/
def Obligations.QueriesReportAndClear : Prop :=
  (∀ (tag b f : Byte) (s : State), s.ready = true →
     ∃ t, exec (.queryChannel tag [b, f]) s = .next t
       ∧ (16 ≤ b.toNat ∨ 1 < f.toNat → Taken (.queryChannel tag [b, f]) .badArg [] s t)
       ∧ ∀ (c : ChanId) (g : Channel) (a : Accum) (m : AccMode) (p : ActiveSet), b.toNat = c.val →
         f.toNat ≤ 1 → g = s.chans.get c → a = s.accs.get c → m = g.cfg.accMode → p = s.projected c →
         Taken (.queryChannel tag [b, f]) .ok
           ([b, natByte g.mode.code, natByte (s.driveState c).code, natByte g.act.drive.code]
           ++ intHalf g.act.level ++ intHalf g.act.lo ++ intHalf g.act.hi
           ++ (match g.act.ramp with
               | some r => intHalf r.target ++ natHalf r.step
               | none => [0, 0, 0, 0])
           ++ [flagsByte [g.act.ramp.isSome, g.clamped, (s.trips.get c).latch, g.pendCfg.isSome,
               decide ((s.senses.get c).filtered = .high)],
             (s.trips.get c).cause.setWidth 8, natByte m.code]
           ++ wordBytes a.value
           ++ [if m = .saturate then 0 else a.count,
             flagsByte [a.sat, a.armed, decide (a.value = 0), decide (m ≠ .magnitude) && a.value.msb]]
           ++ (if f = 1 then
               [1, natByte p.drive.code] ++ intHalf p.level ++ intHalf p.lo ++ intHalf p.hi
               ++ [natByte (s.queue.entries.filter fun e => decide (e.channel = c)).length]
             else List.replicate 9 0))
           { s with chans := s.chans.set c { g with clamped := false } } t)
  ∧ (∀ (s : State) (c : ChanId) (es : List Entry) (a : ActiveSet),
       es.Pairwise (fun e f => e.remaining ≤ f.remaining) →
       (∀ n, es.filter (fun e => decide (e.remaining = n)) =
         s.queue.entries.filter fun e => decide (e.channel = c ∧ e.remaining = n)) →
       a = es.foldl (fun a e => a.apply e.setpoint) (s.chans.get c).act →
       s.projected c = match a.ramp with
         | some r => { a with level := r.target, ramp := none }
         | none => a)
  ∧ (∀ (tag b : Byte) (s : State), s.ready = true →
       ∃ t, exec (.queryCapture tag [b]) s = .next t
         ∧ (16 ≤ b.toNat → Taken (.queryCapture tag [b]) .badArg [] s t)
         ∧ ∀ (c : ChanId) (x : Sense), b.toNat = c.val → x = s.senses.get c →
           Taken (.queryCapture tag [b]) .ok
             ([natByte (s.chans.get c).role.code,
               flagsByte [decide (x.filtered = .high), x.capture.isSome, x.captured, x.overcaptured]]
             ++ match x.capture with
               | some r => wordBytes r.bnum ++ [natByte r.frameIndex] ++ natHalf r.counter
                   ++ [flagsByte [decide (r.dir = .down), decide (r.edge = .falling)]]
               | none => List.replicate 8 0)
             { s with senses := s.senses.set c { x with captured := false } } t)

/-- LAYOUT: the first fault refuses it with its index and changes nothing. An accepted one gives every channel its
layout and a fresh active set, the interlocks and HOME their settings; clears the capture records; drops the trips
of UNUSED channels, trips the used members of every ACTIVE interlock with a TRIP occurrence for each, applies the
AUTO test; sets layout_ok and clears timebase_ok; the compare values are 0, and every channel shows its SETUP pattern
at the pins. Model's choices: the TRIPs come in ascending order of interlocks (log 21); in what the pins show: log 3, 24,
29, 33. Model's choice in when a reply is built: log 13. -/
def Obligations.LayoutIsTakenWhole : Prop :=
  ∀ (tag : Byte) (body : List Byte) (s : State), s.ready = true → s.ctl.mode = .setup →
    s.ctl.writeLockAll = false → body.length = 45 →
    (∀ n, layoutFails body n → (∀ m < n, ¬layoutFails body m) →
      ∃ t, exec (.layout tag body) s = .next t ∧ Taken (.layout tag body) .badArg [natByte n] s t)
    ∧ ((∀ n, ¬layoutFails body n) → s.queue.entries = [] → s.queue.hold = false →
      ∃ t r, exec (.layout tag body) s = .next t
        ∧ r = { t with trips := s.trips }
        ∧ (∀ c : ChanId, ∀ b, b = byteAt body (2 * c.val) →
          ∃ m, ChanMode.code m = (b.extractLsb' 0 2).toNat
            ∧ t.chans.get c = { s.chans.get c with
                mode := m, member := b.extractLsb' 2 4
                deadTime := 4 * (byteAt body (2 * c.val + 1)).toNat
                role := if b.extractLsb' 6 2 = 0 then .none else if b.extractLsb' 6 2 = 1 then .capture else .endStop
                act := freshSet m (s.chans.get c).cfg, clamped := false })
        ∧ (∀ i : IlId, t.ils.get i = { s.ils.get i with
            polarity := if byteAt body (32 + 3 * i.val) = 1 then .activeHigh else .activeLow
            filter := (byteAt body (32 + 3 * i.val + 1)).toNat
            rearm := if byteAt body (32 + 3 * i.val + 2) = 1 then .auto else .manual })
        ∧ (∀ c : ChanId,
          ((t.chans.get c).mode = .unused → t.trips.get c = { latch := false, cause := 0 })
          ∧ ((∃ i : IlId, isMember t i c ∧ isActive (t.ils.get i)) → (t.trips.get c).latch = true
            ∧ ∀ i : IlId, (t.trips.get c).cause.getLsbD i.val =
              ((s.trips.get c).cause.getLsbD i.val || decide (isMember t i c ∧ isActive (t.ils.get i))))
          ∧ ((t.chans.get c).mode ≠ .unused → ¬(∃ i : IlId, isMember t i c ∧ isActive (t.ils.get i)) →
            t.trips.get c = if autoEligible r c then { latch := false, cause := 0 } else s.trips.get c))
        ∧ (∀ c : ChanId, Shows t c { s.outs.get c with compare := 0, side := .none } (t.outs.get c))
        ∧ (∀ c : ChanId, (t.outs.get c).compare = 0 ∧ (t.outs.get c).pinA ≠ .active
          ∧ ((t.trips.get c).latch = false → (t.outs.get c).pinA = .inactive ∧ (t.outs.get c).pinB = .inactive))
        ∧ ∃ (fields : List Byte) (k : Link), Taken (.layout tag body) .ok fields { s with
            chans := t.chans, ils := t.ils, trips := t.trips, outs := t.outs
            senses := s.senses.mapId fun _ x =>
              { x with capture := none, captured := false, overcaptured := false }
            home := { s.home with filter := (byteAt body 44).toNat }
            ctl := { s.ctl with layoutOk := true, timebaseOk := false }
            link := k } t
          ∧ (∃ m, MaskOf m (fun c => (t.trips.get c).latch = true) ∧ fields = halfBytes m)
          ∧ ∃ mask : IlId → Half, (∀ i, MaskOf (mask i) (isMember t i))
            ∧ k = allIls.foldl (fun l i =>
                if isActive (t.ils.get i) ∧ mask i ≠ 0 then l.offer (.trip i (mask i) 0) else l) s.link)

/-- TIMEBASE: the first check of R9 that fails refuses it by its name. Accepted in SETUP it writes both copies,
restarts the counters and sets timebase_ok; accepted in RUN it writes the staged copy alone.
Model's choice in when a reply is built: log 13. -/
def Obligations.TimebaseIsSetOrStaged : Prop :=
  ∀ (tag p lo hi r a : Byte) (s : State) (body : List Byte), body = [p, lo, hi, r, a] → s.ready = true →
    s.ctl.writeLockAll = false → s.ctl.mode = .setup ∧ s.ctl.layoutOk = true ∨ s.ctl.mode = .run →
    (∀ n, timebaseFails s body n → (∀ m < n, ¬timebaseFails s body m) →
      ∃ t, exec (.timebase tag body) s = .next t
        ∧ Taken (.timebase tag body) .badArg [natByte (if n ≤ 3 then n else n - 1)] s t)
    ∧ ∀ g : TbSettings, g = { prescale := p.toNat, period := (hi ++ lo).toNat, rep := r.toNat
                              align := if a = 0 then .edge else .centred } →
      (∀ n, ¬timebaseFails s body n) →
      ∃ t, exec (.timebase tag body) s = .next t
        ∧ (s.ctl.mode = .setup → Taken (.timebase tag body) .ok (body ++ body) { s with
            tb := { s.tb with
              active := g, staged := g, divider := 0, counter := 0, dir := .up, rep := r.toNat }
            ctl := { s.ctl with timebaseOk := true } } t)
        ∧ (s.ctl.mode = .run → Taken (.timebase tag body) .ok (s.tb.active.bytes ++ body)
            { s with tb := { s.tb with staged := g } } t)

/-- START with HOLD_AT in 2 to 32 and RESUME_AT below it begins the run: empty queue with the thresholds, BNUM 0 and
the counters from 0, fresh active sets, capture records and accumulators cleared, mode RUN; the trips, the
Sequence Unit, the configuration and the check log are kept; the compare values of used channels are 0 and every
channel shows its state at the pins (model's choices: log 3, 24, 29, 33). Other thresholds are refused with BAD_ARG.
Model's choice in when a reply is built: log 13. -/
def Obligations.StartBeginsTheRun : Prop :=
  ∀ (tag h q : Byte) (s : State), s.ready = true → s.ctl.mode = .setup → s.ctl.layoutOk = true →
    s.ctl.timebaseOk = true →
    ∃ t, exec (.start tag [h, q]) s = .next t
      ∧ (¬(2 ≤ h.toNat ∧ h.toNat ≤ 32 ∧ q.toNat < h.toNat) → Taken (.start tag [h, q]) .badArg [] s t)
      ∧ (2 ≤ h.toNat ∧ h.toNat ≤ 32 ∧ q.toNat < h.toNat →
        Taken (.start tag [h, q]) .ok [] { s with
          queue := { entries := [], hold := false, holdAt := h.toNat, resumeAt := q.toNat }
          tb := { s.tb with
            divider := 0, counter := 0, dir := .up, rep := s.tb.active.rep, bnum := 0, run := .running
            frameEndDue := false }
          chans := s.chans.mapId fun _ ch => if ch.mode = .unused then ch
            else { ch with act := freshSet ch.mode ch.cfg, clamped := false }
          senses := s.senses.mapId fun _ x =>
            { x with capture := none, captured := false, overcaptured := false }
          accs := s.accs.mapId fun _ _ => { value := 0, count := 0, sat := false, armed := true }
          ctl := { s.ctl with mode := .run }
          outs := t.outs } t
        ∧ (∀ c : ChanId, (s.chans.get c).mode ≠ .unused → (t.outs.get c).compare = 0
          ∧ ((s.trips.get c).latch = false →
            (t.outs.get c).pinA = .inactive ∧ (t.outs.get c).pinB = .inactive))
        ∧ ∀ c : ChanId, Shows t c (if (s.chans.get c).mode = .unused then s.outs.get c
            else { s.outs.get c with compare := 0, side := .none }) (t.outs.get c))

/-- STOP, in its order: the Sequence Unit is DISABLED; the queue is emptied with its HOLD test; pending
configurations are adopted (a change of accumulator mode clears); used channels are reset; the staged settings are
adopted and the Timebase stops with BNUM kept; the mode is SETUP, and the AUTO test is applied. Every channel shows its
SETUP pattern at the pins, a safe pattern adopted here among them (model's choices: log 3, 24, 29, 33).
Model's choice in when a reply is built: log 13. -/
def Obligations.StopEndsTheRun : Prop :=
  ∀ (tag : Byte) (s : State), s.ready = true → s.ctl.mode = .run →
    ∃ t, exec (.stop tag []) s = .next t ∧ Taken (.stop tag []) .ok (wordBytes s.tb.bnum) { s with
      seq := { s.seq with
        unit := .disabled, home := none, current := none, dwell := 0, latches := .empty, held := .empty
        gate := 0xFFFF, status := 0 }
      queue := afterRemoval s.queue []
      link := flowOfRemoval s.queue [] s.link
      chans := s.chans.mapId fun _ ch =>
        { ch with
          cfg := ch.pendCfg.getD ch.cfg, pendCfg := none
          act := if ch.mode = .unused then ch.act else stoppedSet ch.act }
      accs := s.accs.mapId fun c a =>
        if ∃ g ∈ (s.chans.get c).pendCfg, g.accMode ≠ (s.chans.get c).cfg.accMode then
          { value := 0, count := 0, sat := false, armed := true } else a
      tb := { s.tb with
        active := s.tb.staged, divider := 0, counter := 0, dir := .up, rep := s.tb.staged.rep, run := .stopped }
      trips := s.trips.mapId fun c tr => if autoEligible s c then { latch := false, cause := 0 } else tr
      ctl := { s.ctl with mode := .setup }
      outs := t.outs } t
    ∧ (∀ c : ChanId, (s.chans.get c).mode ≠ .unused → (t.outs.get c).compare = 0
      ∧ ((t.trips.get c).latch = false → t.driveState c = .idle
        ∧ (t.outs.get c).pinA = .inactive ∧ (t.outs.get c).pinB = .inactive))
    ∧ ∀ c : ChanId, Shows t c (if (s.chans.get c).mode = .unused then s.outs.get c
        else { s.outs.get c with compare := 0, side := .none }) (t.outs.get c)

/-- CONFIG_WRITE: the first field that fails refuses it by its number. In SETUP it replaces the active configuration
(a change of accumulator mode clears the accumulator), disposition ACTIVE with BNUM sent as 0 (log 14), and its
channel's pins follow at once: a TRIPPED channel shows its new safe pattern (model's choices in what the pins show:
log 3, 24, 29, 33); in RUN it replaces the pending configuration, disposition PENDING with BNUM.
Model's choice in when a reply is built: log 13. -/
def Obligations.ConfigWriteActiveOrPending : Prop :=
  ∀ (tag : Byte) (body : List Byte) (s : State), s.ready = true → body.length = 19 →
    s.ctl.mode = .setup ∨ s.ctl.mode = .run → s.ctl.writeLockConfig = false → s.ctl.writeLockAll = false →
    (∀ n, configFails body n → (∀ m < n, ¬configFails body m) →
      ∃ t, exec (.configWrite tag body) s = .next t
        ∧ Taken (.configWrite tag body) .badArg [natByte n] s t)
    ∧ ((∀ n, ¬configFails body n) → ∀ c : ChanId, (byteAt body 0).toNat = c.val →
      ∃ t g, exec (.configWrite tag body) s = .next t
        ∧ g.bytes = body.drop 1 ∧ g.filter ≤ 15 ∧ g.ClampsOk
        ∧ (s.ctl.mode = .setup →
          Taken (.configWrite tag body) .ok [0, 0, 0, 0, 0] { s with
            chans := s.chans.set c { s.chans.get c with cfg := g }
            accs := if g.accMode = (s.chans.get c).cfg.accMode then s.accs
              else s.accs.set c { value := 0, count := 0, sat := false, armed := true }
            outs := t.outs } t
          ∧ Shows t c (s.outs.get c) (t.outs.get c)
          ∧ ((s.chans.get c).mode ≠ .unused → (s.trips.get c).latch = true →
            t.driveState c = .tripped
            ∧ (g.safe = .inactive → (t.outs.get c).pinA = .inactive ∧ (t.outs.get c).pinB = .inactive)
            ∧ (g.safe = .float → (t.outs.get c).pinA = .released ∧ (t.outs.get c).pinB = .released))
          ∧ ∀ d : ChanId, d ≠ c → t.outs.get d = s.outs.get d)
        ∧ (s.ctl.mode = .run → Taken (.configWrite tag body) .ok (1 :: wordBytes s.tb.bnum)
          { s with chans := s.chans.set c { s.chans.get c with pendCfg := some g } } t))

/-- LOCK sets the flags named and leaves the others; NOTICES replaces the mask and removes the pending notices it
excludes, READY never; an undefined flag or kind is refused with BAD_ARG. CLEAR (ACCUM) clears and arms the
accumulators of its mask and offers nothing; CLEAR (COUNTERS) sets the three error counts and the drop counter to 0,
whatever its mask, and replies with the four values before. Model's choice in when a reply is built: log 13. -/
def Obligations.LocksNoticesAndClears : Prop :=
  (∀ (tag b lo hi : Byte) (s : State), s.ready = true → s.ctl.mode = .setup ∨ s.ctl.mode = .run →
     s.ctl.writeLockAll = false →
     (∃ t, exec (.lock tag [b]) s = .next t
       ∧ (8 ≤ b.toNat → Taken (.lock tag [b]) .badArg [] s t)
       ∧ ∀ r w a : Bool, b.toNat < 8 → r = (s.ctl.readLock || b.getLsbD 0) →
         w = (s.ctl.writeLockConfig || b.getLsbD 1) → a = (s.ctl.writeLockAll || b.getLsbD 2) →
         Taken (.lock tag [b]) .ok [flagsByte [r, w, a]]
           { s with ctl := { s.ctl with readLock := r, writeLockConfig := w, writeLockAll := a } } t)
     ∧ ∃ t, exec (.notices tag [lo, hi]) s = .next t
       ∧ ((∃ k : Fin 16, (k.val = 0 ∨ 9 ≤ k.val) ∧ (hi ++ lo).getLsbD k.val = true) →
         Taken (.notices tag [lo, hi]) .badArg [] s t)
       ∧ (¬(∃ k : Fin 16, (k.val = 0 ∨ 9 ≤ k.val) ∧ (hi ++ lo).getLsbD k.val = true) →
         Taken (.notices tag [lo, hi]) .ok [lo, hi] { s with link := { s.link with
           mask := hi ++ lo
           notices := s.link.notices.filter fun n =>
             decide (n.occ.kind = 0) || (hi ++ lo).getLsbD n.occ.kind } } t))
  ∧ (∀ (tag lo hi : Byte) (s : State), s.ready = true → s.ctl.mode = .setup ∨ s.ctl.mode = .run →
       (∃ t, exec (.clearAccum tag [lo, hi]) s = .next t ∧ Taken (.clearAccum tag [lo, hi]) .ok [lo, hi] { s with
         accs := s.accs.mapId fun c a => if (hi ++ lo).getLsbD c.val = true then
           { value := 0, count := 0, sat := false, armed := true } else a } t)
       ∧ ∃ t, exec (.clearCounters tag [lo, hi]) s = .next t ∧ Taken (.clearCounters tag [lo, hi]) .ok
         (natHalf s.link.framingErrors ++ natHalf s.link.crcErrors ++ natHalf s.link.overruns
           ++ [natByte s.seq.drops]) { s with
         link := { s.link with framingErrors := 0, crcErrors := 0, overruns := 0 }
         seq := { s.seq with drops := 0 } } t)

/-- The record checks of POST: the first check that fails, in the first record that fails one, refuses the whole
batch with its result, the record's index and the check, and nothing changes. Model's choice in when a reply is built: log 13. -/
def Obligations.PostChecksRecordsInOrder : Prop :=
  ∀ (tag : Byte) (body : List Byte) (s : State), s.ready = true → s.ctl.mode = .run →
    body.length % 8 = 0 → 8 ≤ body.length → body.length ≤ 48 →
    ∀ (i n : Nat) (r : PostRec), (postRecords body)[i]? = some r → recordFails s r n →
      (∀ m < n, ¬recordFails s r m) →
      (∀ j < i, ∀ q, (postRecords body)[j]? = some q → ∀ m, ¬recordFails s q m) →
      ∃ t, exec (.post tag body) s = .next t
        ∧ Taken (.post tag body) (if n = 2 then .tripped else .badArg) [natByte i, natByte n] s t

/-- A POST whose records pass is counted and applied whole: with fewer places than new keys it is refused with
QUEUE_FULL, the occupancy and the number needed; otherwise each record in body order coalesces into the entry with
its key or is appended with origin HOST, HOLD is set (with FLOW) by the append that reaches HOLD_AT, and the reply
carries the dispositions, the occupancy after and BNUM. Model's choice in when a reply is built: log 13. -/
def Obligations.PostAppliesWholeBatch : Prop :=
  ∀ (tag : Byte) (body : List Byte) (s : State) (ps : List Posting) (es : List Entry),
    s.ready = true → s.ctl.mode = .run → body.length % 8 = 0 → 8 ≤ body.length → body.length ≤ 48 →
    (∀ r ∈ postRecords body, ∀ n, ¬recordFails s r n) → ps = (postRecords body).map recordPosting →
    es = ps.foldl (afterPosting .host) s.queue.entries → s.queue.entries.length ≤ 32 →
    ∃ t, exec (.post tag body) s = .next t
      ∧ (32 < es.length → Taken (.post tag body) .queueFull
          [natByte s.queue.entries.length, natByte (es.length - s.queue.entries.length)] s t)
      ∧ (es.length ≤ 32 → Taken (.post tag body) .ok
          (dispositions .host s.queue.entries ps ++ [natByte es.length] ++ wordBytes s.tb.bnum)
          { s with
            queue := { s.queue with
              entries := es
              hold := s.queue.hold
                || decide (s.queue.entries.length < es.length ∧ s.queue.holdAt ≤ es.length) }
            link := if s.queue.hold = false ∧ s.queue.entries.length < es.length
                ∧ s.queue.holdAt ≤ es.length then s.link.offer (.flow true) else s.link } t)

/-- WITHDRAW removes every entry of its channel whose kind is in the set, whatever its count and origin, with the
HOLD test; a channel that is not used, an empty set and an undefined kind are refused with BAD_ARG. FORCE_BOUNDARY
raises a boundary at once that is a release boundary and forced, and replies with the BNUM after it; an undefined
flag is refused and raises none. Model's choice in when a reply is built: log 13. -/
def Obligations.WithdrawAndForceBoundary : Prop :=
  (∀ (tag b k : Byte) (s : State), s.ready = true → s.ctl.mode = .run →
     ∃ t, exec (.withdraw tag [b, k]) s = .next t
       ∧ ((¬∃ c : ChanId, b.toNat = c.val ∧ (s.chans.get c).mode ≠ .unused) ∨ k = 0 ∨ 16 ≤ k.toNat →
         Taken (.withdraw tag [b, k]) .badArg [] s t)
       ∧ ∀ (c : ChanId) (es : List Entry), b.toNat = c.val → (s.chans.get c).mode ≠ .unused → k ≠ 0 →
         k.toNat < 16 →
         es = s.queue.entries.filter (fun e =>
           decide (¬(e.channel = c ∧ k.getLsbD e.setpoint.kind.code = true))) →
         Taken (.withdraw tag [b, k]) .ok
           [natByte (s.queue.entries.length - es.length), natByte es.length]
           { s with queue := afterRemoval s.queue es, link := flowOfRemoval s.queue es s.link } t)
  ∧ (∀ (tag f : Byte) (s : State), s.ready = true → s.ctl.mode = .run →
       ∃ t, exec (.forceBoundary tag [f]) s = .next t
         ∧ (1 < f.toNat → Taken (.forceBoundary tag [f]) .badArg [] s t)
         ∧ (f.toNat ≤ 1 → Taken (.forceBoundary tag [f]) .ok (wordBytes (s.tb.bnum + 1))
             (State.runBoundary true (decide (f = 1)) s) t
           ∧ t.tb.bnum = s.tb.bnum + 1 ∧ t.tb.counter = 0 ∧ t.tb.dir = .up ∧ t.tb.active = s.tb.staged))

/-- CLEAR (TRIPS) clears the latch of every channel of its mask that is eligible, resets its active set, empties its
cause set and makes its pins INACTIVE; the others stay. The reply carries the cleared and the still-tripped masks,
with IL_ACTIVE where the second is not empty. In CHECK it is refused. Model's choice in when a reply is built: log 13. -/
def Obligations.ClearTripsClearsEligible : Prop :=
  ∀ (tag lo hi : Byte) (s : State) (cleared still : Half), s.ready = true →
    MaskOf cleared (fun c => (hi ++ lo).getLsbD c.val = true ∧ eligible s c) →
    MaskOf still (fun c => (hi ++ lo).getLsbD c.val = true ∧ (s.trips.get c).latch = true ∧ ¬eligible s c) →
    ∃ t, exec (.clearTrips tag [lo, hi]) s = .next t
      ∧ (s.ctl.mode = .check → Taken (.clearTrips tag [lo, hi]) .refusedState [] s t)
      ∧ (s.ctl.mode = .setup ∨ s.ctl.mode = .run →
        Taken (.clearTrips tag [lo, hi]) (if still = 0 then .ok else .ilActive)
          (halfBytes cleared ++ halfBytes still) { s with
            trips := s.trips.mapId fun c tr =>
              if cleared.getLsbD c.val = true then { latch := false, cause := 0 } else tr
            chans := s.chans.mapId fun c ch =>
              if cleared.getLsbD c.val = true then { ch with act := stoppedSet ch.act } else ch
            outs := t.outs } t
        ∧ ∀ c : ChanId, if cleared.getLsbD c.val = true then
            (t.outs.get c).compare = 0 ∧ (t.outs.get c).pinA = .inactive ∧ (t.outs.get c).pinB = .inactive
          else t.outs.get c = s.outs.get c)

/-- CLEAR (OVERCAPTURE) clears the overcapture flag of every channel of its mask in SETUP and RUN, is refused in CHECK,
and replies with the flags it cleared; the capture flag and record stay, so a capture that follows sets the flag
again only where the capture flag is still set. Model's choice in when a reply is built: log 13. -/
def Obligations.ClearOvercaptureKeepsCaptures : Prop :=
  ∀ (tag lo hi : Byte) (s : State) (cleared : Half), s.ready = true →
    MaskOf cleared (fun c => (hi ++ lo).getLsbD c.val = true ∧ (s.senses.get c).overcaptured = true) →
    (∃ t, exec (.clearOvercapture tag [lo, hi]) s = .next t
      ∧ (s.ctl.mode = .check → Taken (.clearOvercapture tag [lo, hi]) .refusedState [] s t)
      ∧ (s.ctl.mode = .setup ∨ s.ctl.mode = .run →
        Taken (.clearOvercapture tag [lo, hi]) .ok (halfBytes cleared) { s with
          senses := s.senses.mapId fun c x =>
            if (hi ++ lo).getLsbD c.val = true then { x with overcaptured := false } else x } t))
    ∧ ∀ (x : Sense) (r : Capture), x.overcaptured = false →
      ((x.capturing r).overcaptured = true ↔ x.captured = true)

/-- TABLE_WRITE: refused with REFUSED_STATE unless the unit is DISABLED; the first failing check of R136 refuses it
with its number and slot; an accepted section replaces its part of the table exactly (the two undefined bits of the
status byte apart) and nothing else. Model's choice in when a reply is built: log 13. -/
def Obligations.TableWriteReplacesSection : Prop :=
  ∀ (tag : Byte) (body : List Byte) (s : State), s.ready = true → s.ctl.mode = .setup ∨ s.ctl.mode = .run →
    s.ctl.writeLockConfig = false → s.ctl.writeLockAll = false →
    body.length = 57 ∧ byteAt body 0 ≠ 1 ∨ body.length = 25 ∧ byteAt body 0 ≠ 0 →
    (s.seq.unit ≠ .disabled → ∃ t, exec (.tableWrite tag body) s = .next t
      ∧ Taken (.tableWrite tag body) .refusedState [] s t)
    ∧ (s.seq.unit = .disabled →
      (∀ n k, tableFails body n k → (∀ m < n, ∀ j, ¬tableFails body m j) → (∀ j < k, ¬tableFails body n j) →
        ∃ t, exec (.tableWrite tag body) s = .next t
          ∧ Taken (.tableWrite tag body) .badArg [natByte n, natByte k] s t)
      ∧ ((∀ n k, ¬tableFails body n k) →
        ∃ t, exec (.tableWrite tag body) s = .next t
          ∧ (∀ l : LineId, byteAt body 0 = 0 → (byteAt body 1).toNat = l.val →
            ∃ r, StateRec.bytes l r = body.take 5 ++ [byteAt body 5 &&& 0x3F] ++ body.drop 6
              ∧ Taken (.tableWrite tag body) .ok []
                { s with seq := { s.seq with table := s.seq.table.set l r } } t)
          ∧ (byteAt body 0 = 1 → ∃ b, anySectionBytes b = body
              ∧ Taken (.tableWrite tag body) .ok [] { s with seq := { s.seq with anySlots := b } } t)))

/-- SEQ_ARM's validation finds no fault exactly when the home state is defined, every non-empty slot of a defined
state and of the any-state section passes the slot tests, and every used entry posting of a defined state passes
checks 1 and 3 to 10 of R22. Otherwise it finds the first fault in the order home state, L0 to L9 (slots, then
postings), any-state slots, with its place, item, number and fault code. SEQ_ARM: refused unless the unit is DISABLED, for a state number above 9, and with
BAD_TABLE and the fault's place for a faulty table; otherwise the unit becomes RUNNING with no event, enters the
home state with cause ARM, and is HELD where HOME is LOW. The reply carries the home state, the unit state and the
postings placed and dropped. Model's choice in when a reply is built: log 13. -/
def Obligations.SeqArmValidatesAndEnters : Prop :=
  (∀ (s : State) (home : LineId),
     s.armFault home = none ↔
       (s.seq.table.get home).defined ≠ 0
       ∧ (∀ l : LineId, (s.seq.table.get l).defined ≠ 0 →
         (∀ k : Fin 4, slotSound s.seq ((s.seq.table.get l).slots.get k))
         ∧ ∀ k : Fin 4, k.val < (s.seq.table.get l).count.toNat →
             postingSound s ((s.seq.table.get l).postings.get k))
       ∧ ∀ k : Fin 6, slotSound s.seq (s.seq.anySlots.get k))
  ∧ (∀ (s : State) (home : LineId) (place item n k : Nat), armFails s home place item n k →
       (∀ place' item' n' k', armFails s home place' item' n' k' →
         armOrder place item n k ≤ armOrder place' item' n' k') →
       s.armFault home = some (place, item, n, k))
  ∧ (∀ (tag h : Byte) (s : State), s.ready = true → s.ctl.mode = .run →
       ∃ t, exec (.seqArm tag [h]) s = .next t
         ∧ (s.seq.unit ≠ .disabled → Taken (.seqArm tag [h]) .refusedState [] s t)
         ∧ (s.seq.unit = .disabled → 10 ≤ h.toNat → Taken (.seqArm tag [h]) .badArg [] s t)
         ∧ (∀ l : LineId, s.seq.unit = .disabled → h.toNat = l.val →
           (∀ place item n k, s.armFault l = some (place, item, n, k) → Taken (.seqArm tag [h]) .badTable
             [natByte place, natByte item, natByte n, natByte k] s t)
           ∧ ∀ (p d : Nat) (u : State) (unit : UnitState), s.armFault l = none →
             State.enterOutside l .arm { s with seq := { s.seq with
               unit := .running, home := some l, latches := .empty, held := .empty } } = ((p, d), u) →
             unit = (if s.home.filtered = .low then .held else .running) →
             Taken (.seqArm tag [h]) .ok
               [h, if s.home.filtered = .low then 2 else 1, natByte p, natByte d]
               { u with seq := { u.seq with unit := unit } } t))

/-- SEQ_DISARM makes the unit DISABLED with every channel admitted and its drop counter, table and queued entries kept;
a BLOCKED channel takes the state of its active set and shows it at the pins at once under the dead-time guards, the
pins of the others stay (model's choices in what the pins show: log 3, 24, 29, 33);
SEQ_HOME enters the home state of a RUNNING unit with cause SEQ_HOME; TRIGGER sets one trigger latch of a RUNNING
unit and tells whether it was set. The last two are refused by a unit that is not RUNNING.
Model's choice in when a reply is built: log 13. -/
def Obligations.DisarmHomeAndTrigger : Prop :=
  ∀ (tag b : Byte) (s : State), s.ready = true → s.ctl.mode = .run →
    (∃ t, exec (.seqDisarm tag []) s = .next t
      ∧ (s.seq.unit = .disabled → Taken (.seqDisarm tag []) .ok [0] s t)
      ∧ (s.seq.unit ≠ .disabled → Taken (.seqDisarm tag []) .ok [if s.seq.unit = .running then 1 else 2]
          { s with
            seq := { s.seq with
              unit := .disabled, home := none, current := none, dwell := 0, latches := .empty, held := .empty
              gate := 0xFFFF, status := 0 }
            outs := t.outs } t
        ∧ ∀ c : ChanId,
          (s.seq.gate.getLsbD c.val = true → t.outs.get c = s.outs.get c)
          ∧ (s.seq.gate.getLsbD c.val = false → Shows t c (s.outs.get c) (t.outs.get c))
          ∧ ((s.chans.get c).mode ≠ .unused → (s.trips.get c).latch = false →
            t.driveState c = commandedState (s.chans.get c).act)))
    ∧ (∃ t, exec (.seqHome tag []) s = .next t
      ∧ (s.seq.unit ≠ .running → Taken (.seqHome tag []) .refusedState [] s t)
      ∧ ∀ (l : LineId) (p d : Nat) (u : State), s.seq.unit = .running → s.seq.home = some l →
        s.enterOutside l .seqHome = ((p, d), u) →
        Taken (.seqHome tag []) .ok [natByte p, natByte d] u t ∧ u.seq.unit = .running)
    ∧ ∃ t, exec (.trigger tag [b]) s = .next t
      ∧ (s.seq.unit ≠ .running → Taken (.trigger tag [b]) .refusedState [] s t)
      ∧ (s.seq.unit = .running → 4 ≤ b.toNat → Taken (.trigger tag [b]) .badArg [] s t)
      ∧ (s.seq.unit = .running → b.toNat < 4 →
        Taken (.trigger tag [b]) .ok [if s.seq.latches.trigger.getLsbD b.toNat = true then 1 else 0]
          { s with seq := { s.seq with latches := { s.seq.latches with
            trigger := s.seq.latches.trigger ||| (1#4 <<< b.toNat) } } } t)

/-- CHECK: the first check of R156 that fails refuses it with its number and the lowest channel at fault. An
accepted one keeps its parameters, starts from an empty log, stands at the first visit whose channel is not tripped,
with a SKIPPED failure for each visit before it, and makes the mode CHECK with the Timebase counting from 0; where
every channel of the mask is tripped it completes at once with one SKIPPED failure for each visit and offers
CHECK_DONE. The reply carries the planned frames. A first step of the PULSE pass loads its channel's compare value and
side from the pulse level at acceptance; nothing else is loaded. Every channel shows its state at the pins (model's
choices: log 3, 24, 29, 33). STOP_CHECK aborts the check
with reason HOST: the check state is IDLE, the log is kept, the Timebase stops, the mode is SETUP with the AUTO test
applied, and CHECK_DONE is offered; the reply carries the failure count and the check frame index.
Model's choice in when a reply is built: log 13. -/
def Obligations.CheckBeginsAndStops : Prop :=
  (∀ (tag : Byte) (body : List Byte) (s : State), s.ready = true → s.ctl.mode = .setup →
     s.ctl.timebaseOk = true → body.length = 8 →
     (∀ n k, checkFails s body n k → (∀ m < n, ∀ j, ¬checkFails s body m j) →
       ∃ t, exec (.check tag body) s = .next t
         ∧ Taken (.check tag body) .badArg [natByte n, natByte k] s t)
     ∧ ((∀ n k, ¬checkFails s body n k) → ∃ t q, exec (.check tag body) s = .next t ∧ q.bytes = body
       ∧ (∀ skipped v vs st sts, q.visits = skipped ++ v :: vs →
         (∀ w ∈ skipped, (s.trips.get (visitChannel q.order w.2)).latch = true) →
         (s.trips.get (visitChannel q.order v.2)).latch = false →
         stepsOf v.1 (s.chans.get (visitChannel q.order v.2)).mode = st :: sts →
         Taken (.check tag body) .ok
           (natHalf ((q.visits.map fun w =>
             if (s.trips.get (visitChannel q.order w.2)).latch = true then 0
             else (stepsOf w.1 (s.chans.get (visitChannel q.order w.2)).mode).length
               * (if w.1 = .static then q.settle else q.pulse)).sum)) { s with
           check := { skipped.foldl (skipOne q) { s.check with
               running := true, status := .inProgress, reason := .none, params := some q
               frameIndex := 0, log := [], failures := 0, failed := 0 } with
             position := some { pass := v.1, place := v.2, step := st, frames := 0 }
             edges := if st = .pulsePos ∨ st = .pulseNeg then 0 else s.check.edges }
           ctl := { s.ctl with mode := .check }
           tb := { s.tb with
             divider := 0, counter := 0, dir := .up, run := .running, frameEndDue := false }
           outs := t.outs } t
         ∧ t.driveState (visitChannel q.order v.2) = .checking
         ∧ ∀ c : ChanId, Shows t c (s.stepOut q (visitChannel q.order v.2) st c) (t.outs.get c))
       ∧ ((∀ c : ChanId, q.mask.getLsbD c.val = true → (s.trips.get c).latch = true) →
         Taken (.check tag body) .ok [0, 0] { s with
           check := { s.check with
             running := false, status := .fail, reason := .none, params := some q, position := none
             frameIndex := 0, failures := q.visits.length, failed := q.mask
             log := (q.visits.take 6).map fun v =>
               { pass := v.1, channel := visitChannel q.order v.2, step := .skipped, expected := 0, observed := 0
                 index := 0 } }
           tb := { s.tb with
             divider := 0, counter := 0, dir := .up, run := .stopped, frameEndDue := false }
           trips := s.trips.mapId fun c tr => if autoEligible s c then { latch := false, cause := 0 } else tr
           chans := s.chans.mapId fun c ch =>
             if autoEligible s c then { ch with act := stoppedSet ch.act } else ch
           outs := t.outs
           link := s.link.offer (.checkDone .fail .none q.visits.length) } t
         ∧ ∀ c : ChanId, Shows t c (s.rearmedOut c) (t.outs.get c))))
  ∧ (∀ (tag : Byte) (s : State), s.ready = true → s.ctl.mode = .check →
       ∃ t, exec (.stopCheck tag []) s = .next t
         ∧ Taken (.stopCheck tag []) .ok (natHalf s.check.failures ++ natHalf s.check.frameIndex) { s with
           check := { s.check with running := false, status := .aborted, reason := .host, position := none }
           ctl := { s.ctl with mode := .setup }
           tb := { s.tb with divider := 0, counter := 0, dir := .up, run := .stopped }
           trips := s.trips.mapId fun c tr => if autoEligible s c then { latch := false, cause := 0 } else tr
           chans := s.chans.mapId fun c ch =>
             if autoEligible s c then { ch with act := stoppedSet ch.act } else ch
           outs := t.outs
           link := s.link.offer (.checkDone .aborted .host s.check.failures) } t
         ∧ ∀ c : ChanId, Shows t c (s.rearmedOut c) (t.outs.get c)
           ∧ ((s.chans.get c).mode ≠ .unused → (t.trips.get c).latch = false →
             t.driveState c = .idle ∧ (t.outs.get c).pinA = .inactive ∧ (t.outs.get c).pinB = .inactive))

/-! ### Shared rules -/

/-- What each released entry does to a channel (R55, R58 to R60): values are clamped, LEVEL removes a ramp, RAMP
replaces one and keeps the level, DRIVE keeps both, CLAMP clamps the level and a ramp's target anew; the clamped
flag is set where clamping changes a value. And a ramp step moves the level by the step or the distance, whichever
is smaller, removing the ramp at its target. -/
def Obligations.ReleasedEntriesAndRampSteps : Prop :=
  ∀ (g : Channel) (e : Entry) (a : ActiveSet) (clamp : Int → Int → Int → Int), a = g.act →
    clamp = (fun lo hi v => if v < lo then lo else if hi < v then hi else v) →
    (∀ v, e.setpoint = .level v → g.release e = { g with
      act := { a with level := clamp a.lo a.hi v, ramp := none }
      clamped := g.clamped || decide (clamp a.lo a.hi v ≠ v) })
    ∧ (∀ v st, e.setpoint = .ramp v st → g.release e = { g with
      act := { a with ramp := some { target := clamp a.lo a.hi v, step := st } }
      clamped := g.clamped || decide (clamp a.lo a.hi v ≠ v) })
    ∧ (∀ d, e.setpoint = .drive d → g.release e = { g with act := { a with drive := d } })
    ∧ (∀ lo hi, e.setpoint = .clamp lo hi → g.release e = { g with
      act := { drive := a.drive, lo := lo, hi := hi, level := clamp lo hi a.level
               ramp := a.ramp.map fun r => { r with target := clamp lo hi r.target } }
      clamped := g.clamped || decide (clamp lo hi a.level ≠ a.level)
        || decide (∃ r ∈ a.ramp, clamp lo hi r.target ≠ r.target) })
    ∧ (a.ramp = none → a.step = a)
    ∧ ∀ r, a.ramp = some r →
      ((r.target - a.level).natAbs ≤ r.step → a.step = { a with level := r.target, ramp := none })
      ∧ (r.step < (r.target - a.level).natAbs → a.step = { a with
          level := if a.level < r.target then a.level + r.step else a.level - r.step })

/-- Additions in WRAP: the true sum, or the sum less or plus 2^32 with the overflow count moved by 1 inside −128 to
127, and an ACCUM occurrence at every wrap. In MAGNITUDE: the unsigned sum with the absolute level, or the sum less
2^32 with the carry count raised to at most 255 and an ACCUM occurrence. In SATURATE they hold the value at the limit
the sum passes and set SAT, with an ACCUM occurrence only where SAT was clear. In every mode the crossing and re-arm
tests compare the stored value with the threshold, signed in WRAP and SATURATE and unsigned in MAGNITUDE: the one
32-bit field gives two numbers, the reset threshold the same number in both readings; the largest threshold of a
reading is reached only by a value that lands on it, and the smallest is never crossed. -/
def Obligations.AdditionsByMode : Prop :=
  (∀ (a : Accum) (th : Word) (v : Int), -10000 ≤ v → v ≤ 10000 →
     (∀ sum, sum = a.value.toInt + v →
       (-2147483648 ≤ sum ∧ sum ≤ 2147483647 →
         ((a.add .wrap th v).value.toInt = sum ∧ (a.add .wrap th v).count = a.count
           ∧ a.overflows .wrap v = false))
       ∧ (2147483647 < sum →
         ((a.add .wrap th v).value.toInt = sum - 4294967296
           ∧ (a.add .wrap th v).count.toInt = (if a.count.toInt = 127 then 127 else a.count.toInt + 1)
           ∧ a.overflows .wrap v = true))
       ∧ (sum < -2147483648 →
         ((a.add .wrap th v).value.toInt = sum + 4294967296
           ∧ (a.add .wrap th v).count.toInt = (if a.count.toInt = -128 then -128 else a.count.toInt - 1)
           ∧ a.overflows .wrap v = true))
       ∧ (a.add .wrap th v).sat = a.sat)
     ∧ ∀ sum, sum = a.value.toNat + v.natAbs →
       (sum ≤ 4294967295 →
         ((a.add .magnitude th v).value.toNat = sum ∧ (a.add .magnitude th v).count = a.count
           ∧ a.overflows .magnitude v = false))
       ∧ (4294967295 < sum →
         ((a.add .magnitude th v).value.toNat = sum - 4294967296
           ∧ (a.add .magnitude th v).count.toNat = (if a.count.toNat = 255 then 255 else a.count.toNat + 1)
           ∧ a.overflows .magnitude v = true))
       ∧ (a.add .magnitude th v).sat = a.sat)
  ∧ (ChanCfg.reset.threshold.toInt = 2147483647 ∧ ChanCfg.reset.threshold.toNat = 2147483647
     ∧ (0xFFFFFFFF : Word).toInt = -1 ∧ (0xFFFFFFFF : Word).toNat = 4294967295)
  ∧ ∀ (a : Accum) (th : Word) (v sum : Int) (m : AccMode) (read : Word → Int), -10000 ≤ v → v ≤ 10000 →
     sum = a.value.toInt + v → read = (fun w => if m = .magnitude then (w.toNat : Int) else w.toInt) →
     (a.add .saturate th v).value.toInt
         = (if 2147483647 < sum then 2147483647 else if sum < -2147483648 then -2147483648 else sum)
     ∧ (a.add .saturate th v).sat = (a.sat || decide (2147483647 < sum ∨ sum < -2147483648))
     ∧ (a.add .saturate th v).count = a.count
     ∧ (a.overflows .saturate v = true ↔ a.sat = false ∧ (2147483647 < sum ∨ sum < -2147483648))
     ∧ (a.crosses m th v = true ↔
         a.armed = true ∧ read a.value < read th ∧ read th ≤ read (a.add m th v).value)
     ∧ ((a.add m th v).armed = true ↔
         a.armed = true ∧ a.crosses m th v = false ∨ read (a.add m th v).value < read th)
     ∧ (th = (if m = .magnitude then 0xFFFFFFFF else 0x7FFFFFFF) → a.crosses m th v = true →
         (a.add m th v).value = th)
     ∧ (th = (if m = .magnitude then 0 else 0x80000000) → a.crosses m th v = false)

/-- The drive state of a used channel: in RUN TRIPPED under a latch, else BLOCKED where the gate mask excludes it, else
by its commanded drive: OFF IDLE, BRAKE BRAKED, ON RAMPING with a ramp and DRIVING without; in SETUP TRIPPED or IDLE;
in CHECK CHECKING where the Check Engine drives it, else TRIPPED or IDLE. An UNUSED channel is UNUSED in every mode.
And the pins of each state: an event that settles the pins, and every drive clock of an empty queue (log 2), leaves
every channel showing the pattern of its drive state: both INACTIVE when UNUSED, IDLE or BLOCKED, the reference by
mode when it drives or in a PULSE step, B alone when BRAKED (both INACTIVE in SINGLE), the safe pattern when TRIPPED,
A_ON and B_ON steadily in CHECKING, both RELEASED in STARTING. A pin's electrical level is its drive turned by the
output's polarity, none for a RELEASED one. Model's choices: a reference keeps its value while a frame end is due
(log 3); wanted-time counters are 0 outside COMPLEMENT mode (log 24); outputs released by FLOAT are wanted inactive with
wanted-time counters 0 (log 29); what was shown before a boundary of the same drive clock follows as well (log 33). -/
def Obligations.PinsShowDriveStates : Prop :=
  (∀ (s : State) (c : ChanId) (g : Channel), g = s.chans.get c →
     (g.mode = .unused → s.driveState c = .unused)
     ∧ (g.mode ≠ .unused → s.ctl.mode = .run →
       s.driveState c =
         if (s.trips.get c).latch = true then .tripped
         else if s.seq.gate.getLsbD c.val = false then .blocked
         else commandedState g.act)
     ∧ (g.mode ≠ .unused → s.ctl.mode = .setup →
       s.driveState c = if (s.trips.get c).latch = true then .tripped else .idle)
     ∧ (g.mode ≠ .unused → s.ctl.mode = .check →
       ((∃ q p, s.check.params = some q ∧ s.check.position = some p ∧ visitChannel q.order p.place = c) →
         s.driveState c = .checking)
       ∧ ((∀ q p, s.check.params = some q → s.check.position = some p → visitChannel q.order p.place ≠ c) →
         s.driveState c = if (s.trips.get c).latch = true then .tripped else .idle)))
  ∧ (∀ (s : State) (c : ChanId), Shows s c (s.outs.get c) (s.settle.outs.get c))
  ∧ (∀ s t : State, s.pending = [] → step s = .next t → ∀ c : ChanId, Shows t c (t.outs.get c) (t.outs.get c))
  ∧ ∀ (s : State) (c : ChanId) (x : OutPin) (d : PinDrive) (pol : Polarity),
      x = .a ∧ d = (s.outs.get c).pinA ∧ pol = (s.chans.get c).cfg.polA
        ∨ x = .b ∧ d = (s.outs.get c).pinB ∧ pol = (s.chans.get c).cfg.polB →
      s.pinLevel c x =
        if d = .released then none
        else if d = .active ∧ pol = .activeHigh ∨ d = .inactive ∧ pol = .activeLow then some .high
        else some .low

/-! ### Encodings -/

/-- A request's frame sent byte by byte to a hunting receiver is the request command itself (that a request command is
its frame's arrival at the request buffer is the model's choice, log 10): every frame of up to 60 body bytes is
received as it was sent. And an accepted LAYOUT is read back as it was written: the layout bytes after it are its
body. -/
def Obligations.RequestAndLayoutReadBack : Prop :=
  (∀ (c : Instr) (f : Frame) (s : State), requestFrame c = some f → f.body.length ≤ 60 →
     s.ctl.mode ≠ .starting → s.link.rx = .hunting → sendBytes f.bytes s = exec c s)
  ∧ ∀ (tag : Byte) (body : List Byte) (s t : State), s.ready = true → s.ctl.mode = .setup →
     s.ctl.writeLockAll = false → body.length = 45 → (∀ n, ¬layoutFails body n) →
     exec (.layout tag body) s = .next t → t.layoutBytes = body

/-! ### Conditions that every step keeps -/

/-- Outputs A and B of one channel are never both ACTIVE, through every step. -/
def Obligations.OutputsStayApart : Prop :=
  ∀ s t : State, OutputsApart s → step s = .next t → OutputsApart t

/-- The Posting Queue keeps its form through every step: at most 32 entries, no two with one key, HOLD by its
thresholds. -/
def Obligations.QueueStaysWellFormed : Prop :=
  ∀ s t : State, QueueWf s → step s = .next t → QueueWf t

/-- Through every step the queue is empty outside RUN and holds no entry for an UNUSED or tripped channel. -/
def Obligations.QueueStaysClearOfTrips : Prop :=
  ∀ s t : State, QueueAgrees s → step s = .next t → QueueAgrees t

/-- Through every step a used channel is tripped while an interlock in its membership is ACTIVE, and cause sets are
empty where latches are clear. -/
def Obligations.TripsStaySafe : Prop :=
  ∀ s t : State, TripsWf s → step s = .next t → TripsWf t

/-- The Timebase's counters stay within its settings through every step. -/
def Obligations.TimebaseStaysInRange : Prop :=
  ∀ s t : State, TimebaseWf s → step s = .next t → TimebaseWf t

/-- The Notice Queue holds at most one notice of each kind, with counts 1 to 255, through every step; and the request
buffer at most 4 waiting requests. -/
def Obligations.NoticesAndBufferStayBounded : Prop :=
  ∀ s t : State, NoticesWf s → BufferWf s → step s = .next t → NoticesWf t ∧ BufferWf t

/-- Through every step levels and ramp targets lie within the clamps, and the clamp low is 0 on a channel that is not
DIRECTIONAL. -/
def Obligations.LevelsStayClamped : Prop :=
  ∀ s t : State, LevelsWf s → step s = .next t → LevelsWf t

/-- Every condition holds right after reset. -/
def Obligations.ConditionsHoldAtReset : Prop :=
  OutputsApart State.reset ∧ QueueWf State.reset ∧ QueueAgrees State.reset ∧ TripsWf State.reset
  ∧ TimebaseWf State.reset ∧ NoticesWf State.reset ∧ BufferWf State.reset ∧ LevelsWf State.reset
end

