-- ==== Sys2Proof/Laws/Bank.lean ====
section
/-! SUPPORT. Reading a bank after each way of making one. -/

namespace Sys2Proof

@[simp] theorem Bank.get_ofFn {α : Type} {n : Nat} (f : Fin n → α) (i : Fin n) : (Bank.ofFn f).get i = f i := by
  simp only [Bank.get, Bank.ofFn, List.get_ofFn]
  rfl

@[simp] theorem Bank.get_fill {α : Type} {n : Nat} (v : α) (i : Fin n) : (Bank.fill n v).get i = v := by
  simp [Bank.fill]

@[simp] theorem Bank.get_set {α : Type} {n : Nat} (b : Bank α n) (i j : Fin n) (v : α) :
    (b.set i v).get j = if j = i then v else b.get j := by
  simp [Bank.set]

theorem Bank.get_set_self {α : Type} {n : Nat} (b : Bank α n) (i : Fin n) (v : α) : (b.set i v).get i = v := by
  simp

theorem Bank.get_set_of_ne {α : Type} {n : Nat} (b : Bank α n) (i j : Fin n) (v : α) (h : j ≠ i) :
    (b.set i v).get j = b.get j := by
  simp [h]

@[simp] theorem Bank.get_mapId {α β : Type} {n : Nat} (b : Bank α n) (f : Fin n → α → β) (i : Fin n) :
    (b.mapId f).get i = f i (b.get i) := by
  simp [Bank.mapId]

/-- Two banks with the same records are one. -/
theorem Bank.ext_get {α : Type} {n : Nat} {a b : Bank α n} (h : ∀ i, a.get i = b.get i) : a = b := by
  obtain ⟨x, hx⟩ := a
  obtain ⟨y, hy⟩ := b
  have hxy : x = y := by
    apply List.ext_getElem (by rw [hx, hy])
    intro k h1 _
    have := h ⟨k, hx ▸ h1⟩
    simpa [Bank.get] using this
  subst hxy
  rfl

theorem Bank.set_get {α : Type} {n : Nat} (b : Bank α n) (i : Fin n) : b.set i (b.get i) = b :=
  Bank.ext_get fun j => by by_cases h : j = i <;> simp [h]

theorem Bank.mapId_id {α : Type} {n : Nat} (b : Bank α n) : (b.mapId fun _ a => a) = b :=
  Bank.ext_get fun j => by simp

/-- A record is among the bank's data. -/
theorem Bank.mem_data {α : Type} {n : Nat} (b : Bank α n) (a : α) : a ∈ b.data ↔ ∃ i, b.get i = a := by
  obtain ⟨x, hx⟩ := b
  subst hx
  simp [Bank.get, List.mem_iff_get]

/-- Bit `c` of a channel mask made from a test. -/
theorem chanMask_getLsbD (p : ChanId → Bool) (c : ChanId) : (chanMask p).getLsbD c.val = p c := by
  unfold chanMask allChans
  rw [BitVec.getLsbD_setWidth, BitVec.getLsbD_ofBoolListLE]
  simp [List.getD]

/-- A channel mask is 0 exactly where the test holds nowhere. -/
theorem chanMask_eq_zero (p : ChanId → Bool) : chanMask p = 0 ↔ ∀ c, p c = false := by
  constructor
  · intro h c
    rw [← chanMask_getLsbD p c, h]; simp
  · intro h
    apply BitVec.eq_of_getLsbD_eq
    intro i hi
    have := chanMask_getLsbD p ⟨i, hi⟩
    simp only at this
    rw [this, h]; simp

end Sys2Proof
end

