-- ==== Sys2Proof/Laws/State.lean ====
section
/-! SUPPORT. What each operation of the machine leaves as it was: one simp lemma for each field of State that an
operation does not touch. -/

namespace Sys2Proof.Machine

/-! ### pick -/

@[simp] theorem State.pick_pending (n : Nat) (s : State) : ((s.pick n).2).pending = s.pending := by
  unfold State.pick; split <;> rfl
@[simp] theorem State.pick_tb (n : Nat) (s : State) : ((s.pick n).2).tb = s.tb := by
  unfold State.pick; split <;> rfl
@[simp] theorem State.pick_queue (n : Nat) (s : State) : ((s.pick n).2).queue = s.queue := by
  unfold State.pick; split <;> rfl
@[simp] theorem State.pick_chans (n : Nat) (s : State) : ((s.pick n).2).chans = s.chans := by
  unfold State.pick; split <;> rfl
@[simp] theorem State.pick_outs (n : Nat) (s : State) : ((s.pick n).2).outs = s.outs := by
  unfold State.pick; split <;> rfl
@[simp] theorem State.pick_senses (n : Nat) (s : State) : ((s.pick n).2).senses = s.senses := by
  unfold State.pick; split <;> rfl
@[simp] theorem State.pick_sampler (n : Nat) (s : State) : ((s.pick n).2).sampler = s.sampler := by
  unfold State.pick; split <;> rfl
@[simp] theorem State.pick_ils (n : Nat) (s : State) : ((s.pick n).2).ils = s.ils := by
  unfold State.pick; split <;> rfl
@[simp] theorem State.pick_home (n : Nat) (s : State) : ((s.pick n).2).home = s.home := by
  unfold State.pick; split <;> rfl
@[simp] theorem State.pick_trips (n : Nat) (s : State) : ((s.pick n).2).trips = s.trips := by
  unfold State.pick; split <;> rfl
@[simp] theorem State.pick_accs (n : Nat) (s : State) : ((s.pick n).2).accs = s.accs := by
  unfold State.pick; split <;> rfl
@[simp] theorem State.pick_seq (n : Nat) (s : State) : ((s.pick n).2).seq = s.seq := by
  unfold State.pick; split <;> rfl
@[simp] theorem State.pick_check (n : Nat) (s : State) : ((s.pick n).2).check = s.check := by
  unfold State.pick; split <;> rfl
@[simp] theorem State.pick_ctl (n : Nat) (s : State) : ((s.pick n).2).ctl = s.ctl := by
  unfold State.pick; split <;> rfl
@[simp] theorem State.pick_link (n : Nat) (s : State) : ((s.pick n).2).link = s.link := by
  unfold State.pick; split <;> rfl
@[simp] theorem State.pick_pins (n : Nat) (s : State) : ((s.pick n).2).pins = s.pins := by
  unfold State.pick; split <;> rfl

/-! ### offer -/

@[simp] theorem State.offer_pending (o : Occurrence) (s : State) : (s.offer o).pending = s.pending := rfl
@[simp] theorem State.offer_tb (o : Occurrence) (s : State) : (s.offer o).tb = s.tb := rfl
@[simp] theorem State.offer_queue (o : Occurrence) (s : State) : (s.offer o).queue = s.queue := rfl
@[simp] theorem State.offer_chans (o : Occurrence) (s : State) : (s.offer o).chans = s.chans := rfl
@[simp] theorem State.offer_outs (o : Occurrence) (s : State) : (s.offer o).outs = s.outs := rfl
@[simp] theorem State.offer_senses (o : Occurrence) (s : State) : (s.offer o).senses = s.senses := rfl
@[simp] theorem State.offer_sampler (o : Occurrence) (s : State) : (s.offer o).sampler = s.sampler := rfl
@[simp] theorem State.offer_ils (o : Occurrence) (s : State) : (s.offer o).ils = s.ils := rfl
@[simp] theorem State.offer_home (o : Occurrence) (s : State) : (s.offer o).home = s.home := rfl
@[simp] theorem State.offer_trips (o : Occurrence) (s : State) : (s.offer o).trips = s.trips := rfl
@[simp] theorem State.offer_accs (o : Occurrence) (s : State) : (s.offer o).accs = s.accs := rfl
@[simp] theorem State.offer_seq (o : Occurrence) (s : State) : (s.offer o).seq = s.seq := rfl
@[simp] theorem State.offer_check (o : Occurrence) (s : State) : (s.offer o).check = s.check := rfl
@[simp] theorem State.offer_ctl (o : Occurrence) (s : State) : (s.offer o).ctl = s.ctl := rfl
@[simp] theorem State.offer_pins (o : Occurrence) (s : State) : (s.offer o).pins = s.pins := rfl
@[simp] theorem State.offer_freeCount (o : Occurrence) (s : State) : (s.offer o).freeCount = s.freeCount := rfl

/-! ### offerIf -/

@[simp] theorem State.offerIf_pending (b : Bool) (o : Occurrence) (s : State) : (s.offerIf b o).pending = s.pending := by
  unfold State.offerIf; split <;> rfl
@[simp] theorem State.offerIf_tb (b : Bool) (o : Occurrence) (s : State) : (s.offerIf b o).tb = s.tb := by
  unfold State.offerIf; split <;> rfl
@[simp] theorem State.offerIf_queue (b : Bool) (o : Occurrence) (s : State) : (s.offerIf b o).queue = s.queue := by
  unfold State.offerIf; split <;> rfl
@[simp] theorem State.offerIf_chans (b : Bool) (o : Occurrence) (s : State) : (s.offerIf b o).chans = s.chans := by
  unfold State.offerIf; split <;> rfl
@[simp] theorem State.offerIf_outs (b : Bool) (o : Occurrence) (s : State) : (s.offerIf b o).outs = s.outs := by
  unfold State.offerIf; split <;> rfl
@[simp] theorem State.offerIf_senses (b : Bool) (o : Occurrence) (s : State) : (s.offerIf b o).senses = s.senses := by
  unfold State.offerIf; split <;> rfl
@[simp] theorem State.offerIf_sampler (b : Bool) (o : Occurrence) (s : State) : (s.offerIf b o).sampler = s.sampler := by
  unfold State.offerIf; split <;> rfl
@[simp] theorem State.offerIf_ils (b : Bool) (o : Occurrence) (s : State) : (s.offerIf b o).ils = s.ils := by
  unfold State.offerIf; split <;> rfl
@[simp] theorem State.offerIf_home (b : Bool) (o : Occurrence) (s : State) : (s.offerIf b o).home = s.home := by
  unfold State.offerIf; split <;> rfl
@[simp] theorem State.offerIf_trips (b : Bool) (o : Occurrence) (s : State) : (s.offerIf b o).trips = s.trips := by
  unfold State.offerIf; split <;> rfl
@[simp] theorem State.offerIf_accs (b : Bool) (o : Occurrence) (s : State) : (s.offerIf b o).accs = s.accs := by
  unfold State.offerIf; split <;> rfl
@[simp] theorem State.offerIf_seq (b : Bool) (o : Occurrence) (s : State) : (s.offerIf b o).seq = s.seq := by
  unfold State.offerIf; split <;> rfl
@[simp] theorem State.offerIf_check (b : Bool) (o : Occurrence) (s : State) : (s.offerIf b o).check = s.check := by
  unfold State.offerIf; split <;> rfl
@[simp] theorem State.offerIf_ctl (b : Bool) (o : Occurrence) (s : State) : (s.offerIf b o).ctl = s.ctl := by
  unfold State.offerIf; split <;> rfl
@[simp] theorem State.offerIf_pins (b : Bool) (o : Occurrence) (s : State) : (s.offerIf b o).pins = s.pins := by
  unfold State.offerIf; split <;> rfl
@[simp] theorem State.offerIf_freeCount (b : Bool) (o : Occurrence) (s : State) : (s.offerIf b o).freeCount = s.freeCount := by
  unfold State.offerIf; split <;> rfl

/-! ### changeHold -/

@[simp] theorem State.changeHold_pending (h : Bool) (s : State) : (s.changeHold h).pending = s.pending := rfl
@[simp] theorem State.changeHold_tb (h : Bool) (s : State) : (s.changeHold h).tb = s.tb := rfl
@[simp] theorem State.changeHold_chans (h : Bool) (s : State) : (s.changeHold h).chans = s.chans := rfl
@[simp] theorem State.changeHold_outs (h : Bool) (s : State) : (s.changeHold h).outs = s.outs := rfl
@[simp] theorem State.changeHold_senses (h : Bool) (s : State) : (s.changeHold h).senses = s.senses := rfl
@[simp] theorem State.changeHold_sampler (h : Bool) (s : State) : (s.changeHold h).sampler = s.sampler := rfl
@[simp] theorem State.changeHold_ils (h : Bool) (s : State) : (s.changeHold h).ils = s.ils := rfl
@[simp] theorem State.changeHold_home (h : Bool) (s : State) : (s.changeHold h).home = s.home := rfl
@[simp] theorem State.changeHold_trips (h : Bool) (s : State) : (s.changeHold h).trips = s.trips := rfl
@[simp] theorem State.changeHold_accs (h : Bool) (s : State) : (s.changeHold h).accs = s.accs := rfl
@[simp] theorem State.changeHold_seq (h : Bool) (s : State) : (s.changeHold h).seq = s.seq := rfl
@[simp] theorem State.changeHold_check (h : Bool) (s : State) : (s.changeHold h).check = s.check := rfl
@[simp] theorem State.changeHold_ctl (h : Bool) (s : State) : (s.changeHold h).ctl = s.ctl := rfl
@[simp] theorem State.changeHold_pins (h : Bool) (s : State) : (s.changeHold h).pins = s.pins := rfl
@[simp] theorem State.changeHold_freeCount (h : Bool) (s : State) : (s.changeHold h).freeCount = s.freeCount := rfl

/-! ### holdAfterAppend -/

@[simp] theorem State.holdAfterAppend_pending (s : State) : (s.holdAfterAppend).pending = s.pending := by
  unfold State.holdAfterAppend; split <;> rfl
@[simp] theorem State.holdAfterAppend_tb (s : State) : (s.holdAfterAppend).tb = s.tb := by
  unfold State.holdAfterAppend; split <;> rfl
@[simp] theorem State.holdAfterAppend_chans (s : State) : (s.holdAfterAppend).chans = s.chans := by
  unfold State.holdAfterAppend; split <;> rfl
@[simp] theorem State.holdAfterAppend_outs (s : State) : (s.holdAfterAppend).outs = s.outs := by
  unfold State.holdAfterAppend; split <;> rfl
@[simp] theorem State.holdAfterAppend_senses (s : State) : (s.holdAfterAppend).senses = s.senses := by
  unfold State.holdAfterAppend; split <;> rfl
@[simp] theorem State.holdAfterAppend_sampler (s : State) : (s.holdAfterAppend).sampler = s.sampler := by
  unfold State.holdAfterAppend; split <;> rfl
@[simp] theorem State.holdAfterAppend_ils (s : State) : (s.holdAfterAppend).ils = s.ils := by
  unfold State.holdAfterAppend; split <;> rfl
@[simp] theorem State.holdAfterAppend_home (s : State) : (s.holdAfterAppend).home = s.home := by
  unfold State.holdAfterAppend; split <;> rfl
@[simp] theorem State.holdAfterAppend_trips (s : State) : (s.holdAfterAppend).trips = s.trips := by
  unfold State.holdAfterAppend; split <;> rfl
@[simp] theorem State.holdAfterAppend_accs (s : State) : (s.holdAfterAppend).accs = s.accs := by
  unfold State.holdAfterAppend; split <;> rfl
@[simp] theorem State.holdAfterAppend_seq (s : State) : (s.holdAfterAppend).seq = s.seq := by
  unfold State.holdAfterAppend; split <;> rfl
@[simp] theorem State.holdAfterAppend_check (s : State) : (s.holdAfterAppend).check = s.check := by
  unfold State.holdAfterAppend; split <;> rfl
@[simp] theorem State.holdAfterAppend_ctl (s : State) : (s.holdAfterAppend).ctl = s.ctl := by
  unfold State.holdAfterAppend; split <;> rfl
@[simp] theorem State.holdAfterAppend_pins (s : State) : (s.holdAfterAppend).pins = s.pins := by
  unfold State.holdAfterAppend; split <;> rfl
@[simp] theorem State.holdAfterAppend_freeCount (s : State) : (s.holdAfterAppend).freeCount = s.freeCount := by
  unfold State.holdAfterAppend; split <;> rfl

/-! ### holdAfterRemoval -/

@[simp] theorem State.holdAfterRemoval_pending (s : State) : (s.holdAfterRemoval).pending = s.pending := by
  unfold State.holdAfterRemoval; split <;> rfl
@[simp] theorem State.holdAfterRemoval_tb (s : State) : (s.holdAfterRemoval).tb = s.tb := by
  unfold State.holdAfterRemoval; split <;> rfl
@[simp] theorem State.holdAfterRemoval_chans (s : State) : (s.holdAfterRemoval).chans = s.chans := by
  unfold State.holdAfterRemoval; split <;> rfl
@[simp] theorem State.holdAfterRemoval_outs (s : State) : (s.holdAfterRemoval).outs = s.outs := by
  unfold State.holdAfterRemoval; split <;> rfl
@[simp] theorem State.holdAfterRemoval_senses (s : State) : (s.holdAfterRemoval).senses = s.senses := by
  unfold State.holdAfterRemoval; split <;> rfl
@[simp] theorem State.holdAfterRemoval_sampler (s : State) : (s.holdAfterRemoval).sampler = s.sampler := by
  unfold State.holdAfterRemoval; split <;> rfl
@[simp] theorem State.holdAfterRemoval_ils (s : State) : (s.holdAfterRemoval).ils = s.ils := by
  unfold State.holdAfterRemoval; split <;> rfl
@[simp] theorem State.holdAfterRemoval_home (s : State) : (s.holdAfterRemoval).home = s.home := by
  unfold State.holdAfterRemoval; split <;> rfl
@[simp] theorem State.holdAfterRemoval_trips (s : State) : (s.holdAfterRemoval).trips = s.trips := by
  unfold State.holdAfterRemoval; split <;> rfl
@[simp] theorem State.holdAfterRemoval_accs (s : State) : (s.holdAfterRemoval).accs = s.accs := by
  unfold State.holdAfterRemoval; split <;> rfl
@[simp] theorem State.holdAfterRemoval_seq (s : State) : (s.holdAfterRemoval).seq = s.seq := by
  unfold State.holdAfterRemoval; split <;> rfl
@[simp] theorem State.holdAfterRemoval_check (s : State) : (s.holdAfterRemoval).check = s.check := by
  unfold State.holdAfterRemoval; split <;> rfl
@[simp] theorem State.holdAfterRemoval_ctl (s : State) : (s.holdAfterRemoval).ctl = s.ctl := by
  unfold State.holdAfterRemoval; split <;> rfl
@[simp] theorem State.holdAfterRemoval_pins (s : State) : (s.holdAfterRemoval).pins = s.pins := by
  unfold State.holdAfterRemoval; split <;> rfl
@[simp] theorem State.holdAfterRemoval_freeCount (s : State) : (s.holdAfterRemoval).freeCount = s.freeCount := by
  unfold State.holdAfterRemoval; split <;> rfl

/-! ### settleOn -/

@[simp] theorem State.settleOn_pending (sel : ChanId → Bool) (s : State) : (s.settleOn sel).pending = s.pending := rfl
@[simp] theorem State.settleOn_tb (sel : ChanId → Bool) (s : State) : (s.settleOn sel).tb = s.tb := rfl
@[simp] theorem State.settleOn_queue (sel : ChanId → Bool) (s : State) : (s.settleOn sel).queue = s.queue := rfl
@[simp] theorem State.settleOn_chans (sel : ChanId → Bool) (s : State) : (s.settleOn sel).chans = s.chans := rfl
@[simp] theorem State.settleOn_senses (sel : ChanId → Bool) (s : State) : (s.settleOn sel).senses = s.senses := rfl
@[simp] theorem State.settleOn_sampler (sel : ChanId → Bool) (s : State) : (s.settleOn sel).sampler = s.sampler := rfl
@[simp] theorem State.settleOn_ils (sel : ChanId → Bool) (s : State) : (s.settleOn sel).ils = s.ils := rfl
@[simp] theorem State.settleOn_home (sel : ChanId → Bool) (s : State) : (s.settleOn sel).home = s.home := rfl
@[simp] theorem State.settleOn_trips (sel : ChanId → Bool) (s : State) : (s.settleOn sel).trips = s.trips := rfl
@[simp] theorem State.settleOn_accs (sel : ChanId → Bool) (s : State) : (s.settleOn sel).accs = s.accs := rfl
@[simp] theorem State.settleOn_seq (sel : ChanId → Bool) (s : State) : (s.settleOn sel).seq = s.seq := rfl
@[simp] theorem State.settleOn_check (sel : ChanId → Bool) (s : State) : (s.settleOn sel).check = s.check := rfl
@[simp] theorem State.settleOn_ctl (sel : ChanId → Bool) (s : State) : (s.settleOn sel).ctl = s.ctl := rfl
@[simp] theorem State.settleOn_link (sel : ChanId → Bool) (s : State) : (s.settleOn sel).link = s.link := rfl
@[simp] theorem State.settleOn_pins (sel : ChanId → Bool) (s : State) : (s.settleOn sel).pins = s.pins := rfl
@[simp] theorem State.settleOn_freeCount (sel : ChanId → Bool) (s : State) : (s.settleOn sel).freeCount = s.freeCount := rfl

/-! ### settle -/

@[simp] theorem State.settle_pending (s : State) : (s.settle).pending = s.pending := rfl
@[simp] theorem State.settle_tb (s : State) : (s.settle).tb = s.tb := rfl
@[simp] theorem State.settle_queue (s : State) : (s.settle).queue = s.queue := rfl
@[simp] theorem State.settle_chans (s : State) : (s.settle).chans = s.chans := rfl
@[simp] theorem State.settle_senses (s : State) : (s.settle).senses = s.senses := rfl
@[simp] theorem State.settle_sampler (s : State) : (s.settle).sampler = s.sampler := rfl
@[simp] theorem State.settle_ils (s : State) : (s.settle).ils = s.ils := rfl
@[simp] theorem State.settle_home (s : State) : (s.settle).home = s.home := rfl
@[simp] theorem State.settle_trips (s : State) : (s.settle).trips = s.trips := rfl
@[simp] theorem State.settle_accs (s : State) : (s.settle).accs = s.accs := rfl
@[simp] theorem State.settle_seq (s : State) : (s.settle).seq = s.seq := rfl
@[simp] theorem State.settle_check (s : State) : (s.settle).check = s.check := rfl
@[simp] theorem State.settle_ctl (s : State) : (s.settle).ctl = s.ctl := rfl
@[simp] theorem State.settle_link (s : State) : (s.settle).link = s.link := rfl
@[simp] theorem State.settle_pins (s : State) : (s.settle).pins = s.pins := rfl
@[simp] theorem State.settle_freeCount (s : State) : (s.settle).freeCount = s.freeCount := rfl

/-! ### loadCompare -/

@[simp] theorem State.loadCompare_pending (sel : ChanId → Bool) (s : State) : (s.loadCompare sel).pending = s.pending := rfl
@[simp] theorem State.loadCompare_tb (sel : ChanId → Bool) (s : State) : (s.loadCompare sel).tb = s.tb := rfl
@[simp] theorem State.loadCompare_queue (sel : ChanId → Bool) (s : State) : (s.loadCompare sel).queue = s.queue := rfl
@[simp] theorem State.loadCompare_chans (sel : ChanId → Bool) (s : State) : (s.loadCompare sel).chans = s.chans := rfl
@[simp] theorem State.loadCompare_senses (sel : ChanId → Bool) (s : State) : (s.loadCompare sel).senses = s.senses := rfl
@[simp] theorem State.loadCompare_sampler (sel : ChanId → Bool) (s : State) : (s.loadCompare sel).sampler = s.sampler := rfl
@[simp] theorem State.loadCompare_ils (sel : ChanId → Bool) (s : State) : (s.loadCompare sel).ils = s.ils := rfl
@[simp] theorem State.loadCompare_home (sel : ChanId → Bool) (s : State) : (s.loadCompare sel).home = s.home := rfl
@[simp] theorem State.loadCompare_trips (sel : ChanId → Bool) (s : State) : (s.loadCompare sel).trips = s.trips := rfl
@[simp] theorem State.loadCompare_accs (sel : ChanId → Bool) (s : State) : (s.loadCompare sel).accs = s.accs := rfl
@[simp] theorem State.loadCompare_seq (sel : ChanId → Bool) (s : State) : (s.loadCompare sel).seq = s.seq := rfl
@[simp] theorem State.loadCompare_check (sel : ChanId → Bool) (s : State) : (s.loadCompare sel).check = s.check := rfl
@[simp] theorem State.loadCompare_ctl (sel : ChanId → Bool) (s : State) : (s.loadCompare sel).ctl = s.ctl := rfl
@[simp] theorem State.loadCompare_link (sel : ChanId → Bool) (s : State) : (s.loadCompare sel).link = s.link := rfl
@[simp] theorem State.loadCompare_pins (sel : ChanId → Bool) (s : State) : (s.loadCompare sel).pins = s.pins := rfl
@[simp] theorem State.loadCompare_freeCount (sel : ChanId → Bool) (s : State) : (s.loadCompare sel).freeCount = s.freeCount := rfl

/-! ### insert -/

@[simp] theorem State.insert_pending (o : Origin) (p : Posting) (s : State) : (s.insert o p).pending = s.pending := by
  unfold State.insert; split <;> simp
@[simp] theorem State.insert_tb (o : Origin) (p : Posting) (s : State) : (s.insert o p).tb = s.tb := by
  unfold State.insert; split <;> simp
@[simp] theorem State.insert_chans (o : Origin) (p : Posting) (s : State) : (s.insert o p).chans = s.chans := by
  unfold State.insert; split <;> simp
@[simp] theorem State.insert_outs (o : Origin) (p : Posting) (s : State) : (s.insert o p).outs = s.outs := by
  unfold State.insert; split <;> simp
@[simp] theorem State.insert_senses (o : Origin) (p : Posting) (s : State) : (s.insert o p).senses = s.senses := by
  unfold State.insert; split <;> simp
@[simp] theorem State.insert_sampler (o : Origin) (p : Posting) (s : State) : (s.insert o p).sampler = s.sampler := by
  unfold State.insert; split <;> simp
@[simp] theorem State.insert_ils (o : Origin) (p : Posting) (s : State) : (s.insert o p).ils = s.ils := by
  unfold State.insert; split <;> simp
@[simp] theorem State.insert_home (o : Origin) (p : Posting) (s : State) : (s.insert o p).home = s.home := by
  unfold State.insert; split <;> simp
@[simp] theorem State.insert_trips (o : Origin) (p : Posting) (s : State) : (s.insert o p).trips = s.trips := by
  unfold State.insert; split <;> simp
@[simp] theorem State.insert_accs (o : Origin) (p : Posting) (s : State) : (s.insert o p).accs = s.accs := by
  unfold State.insert; split <;> simp
@[simp] theorem State.insert_seq (o : Origin) (p : Posting) (s : State) : (s.insert o p).seq = s.seq := by
  unfold State.insert; split <;> simp
@[simp] theorem State.insert_check (o : Origin) (p : Posting) (s : State) : (s.insert o p).check = s.check := by
  unfold State.insert; split <;> simp
@[simp] theorem State.insert_ctl (o : Origin) (p : Posting) (s : State) : (s.insert o p).ctl = s.ctl := by
  unfold State.insert; split <;> simp
@[simp] theorem State.insert_pins (o : Origin) (p : Posting) (s : State) : (s.insert o p).pins = s.pins := by
  unfold State.insert; split <;> simp
@[simp] theorem State.insert_freeCount (o : Origin) (p : Posting) (s : State) : (s.insert o p).freeCount = s.freeCount := by
  unfold State.insert; split <;> simp

/-! ### removeEntries -/

@[simp] theorem State.removeEntries_pending (sel : Entry → Bool) (s : State) : (s.removeEntries sel).pending = s.pending := by simp [State.removeEntries]
@[simp] theorem State.removeEntries_tb (sel : Entry → Bool) (s : State) : (s.removeEntries sel).tb = s.tb := by simp [State.removeEntries]
@[simp] theorem State.removeEntries_chans (sel : Entry → Bool) (s : State) : (s.removeEntries sel).chans = s.chans := by simp [State.removeEntries]
@[simp] theorem State.removeEntries_outs (sel : Entry → Bool) (s : State) : (s.removeEntries sel).outs = s.outs := by simp [State.removeEntries]
@[simp] theorem State.removeEntries_senses (sel : Entry → Bool) (s : State) : (s.removeEntries sel).senses = s.senses := by simp [State.removeEntries]
@[simp] theorem State.removeEntries_sampler (sel : Entry → Bool) (s : State) : (s.removeEntries sel).sampler = s.sampler := by simp [State.removeEntries]
@[simp] theorem State.removeEntries_ils (sel : Entry → Bool) (s : State) : (s.removeEntries sel).ils = s.ils := by simp [State.removeEntries]
@[simp] theorem State.removeEntries_home (sel : Entry → Bool) (s : State) : (s.removeEntries sel).home = s.home := by simp [State.removeEntries]
@[simp] theorem State.removeEntries_trips (sel : Entry → Bool) (s : State) : (s.removeEntries sel).trips = s.trips := by simp [State.removeEntries]
@[simp] theorem State.removeEntries_accs (sel : Entry → Bool) (s : State) : (s.removeEntries sel).accs = s.accs := by simp [State.removeEntries]
@[simp] theorem State.removeEntries_seq (sel : Entry → Bool) (s : State) : (s.removeEntries sel).seq = s.seq := by simp [State.removeEntries]
@[simp] theorem State.removeEntries_check (sel : Entry → Bool) (s : State) : (s.removeEntries sel).check = s.check := by simp [State.removeEntries]
@[simp] theorem State.removeEntries_ctl (sel : Entry → Bool) (s : State) : (s.removeEntries sel).ctl = s.ctl := by simp [State.removeEntries]
@[simp] theorem State.removeEntries_pins (sel : Entry → Bool) (s : State) : (s.removeEntries sel).pins = s.pins := by simp [State.removeEntries]
@[simp] theorem State.removeEntries_freeCount (sel : Entry → Bool) (s : State) : (s.removeEntries sel).freeCount = s.freeCount := by simp [State.removeEntries]

/-! ### countdown -/

@[simp] theorem State.countdown_pending (s : State) : (s.countdown).pending = s.pending := by simp [State.countdown]
@[simp] theorem State.countdown_tb (s : State) : (s.countdown).tb = s.tb := by simp [State.countdown]
@[simp] theorem State.countdown_chans (s : State) : (s.countdown).chans = s.chans := by simp [State.countdown]
@[simp] theorem State.countdown_outs (s : State) : (s.countdown).outs = s.outs := by simp [State.countdown]
@[simp] theorem State.countdown_senses (s : State) : (s.countdown).senses = s.senses := by simp [State.countdown]
@[simp] theorem State.countdown_sampler (s : State) : (s.countdown).sampler = s.sampler := by simp [State.countdown]
@[simp] theorem State.countdown_ils (s : State) : (s.countdown).ils = s.ils := by simp [State.countdown]
@[simp] theorem State.countdown_home (s : State) : (s.countdown).home = s.home := by simp [State.countdown]
@[simp] theorem State.countdown_trips (s : State) : (s.countdown).trips = s.trips := by simp [State.countdown]
@[simp] theorem State.countdown_accs (s : State) : (s.countdown).accs = s.accs := by simp [State.countdown]
@[simp] theorem State.countdown_seq (s : State) : (s.countdown).seq = s.seq := by simp [State.countdown]
@[simp] theorem State.countdown_check (s : State) : (s.countdown).check = s.check := by simp [State.countdown]
@[simp] theorem State.countdown_ctl (s : State) : (s.countdown).ctl = s.ctl := by simp [State.countdown]
@[simp] theorem State.countdown_pins (s : State) : (s.countdown).pins = s.pins := by simp [State.countdown]
@[simp] theorem State.countdown_freeCount (s : State) : (s.countdown).freeCount = s.freeCount := by simp [State.countdown]

/-! ### insertAll -/

@[simp] theorem State.insertAll_pending (o : Origin) (ps : List Posting) (s : State) : ((s.insertAll o ps).2).pending = s.pending := by
  induction ps generalizing s with
  | nil => rfl
  | cons p ps ih => simp [State.insertAll, ih]
@[simp] theorem State.insertAll_tb (o : Origin) (ps : List Posting) (s : State) : ((s.insertAll o ps).2).tb = s.tb := by
  induction ps generalizing s with
  | nil => rfl
  | cons p ps ih => simp [State.insertAll, ih]
@[simp] theorem State.insertAll_chans (o : Origin) (ps : List Posting) (s : State) : ((s.insertAll o ps).2).chans = s.chans := by
  induction ps generalizing s with
  | nil => rfl
  | cons p ps ih => simp [State.insertAll, ih]
@[simp] theorem State.insertAll_outs (o : Origin) (ps : List Posting) (s : State) : ((s.insertAll o ps).2).outs = s.outs := by
  induction ps generalizing s with
  | nil => rfl
  | cons p ps ih => simp [State.insertAll, ih]
@[simp] theorem State.insertAll_senses (o : Origin) (ps : List Posting) (s : State) : ((s.insertAll o ps).2).senses = s.senses := by
  induction ps generalizing s with
  | nil => rfl
  | cons p ps ih => simp [State.insertAll, ih]
@[simp] theorem State.insertAll_sampler (o : Origin) (ps : List Posting) (s : State) : ((s.insertAll o ps).2).sampler = s.sampler := by
  induction ps generalizing s with
  | nil => rfl
  | cons p ps ih => simp [State.insertAll, ih]
@[simp] theorem State.insertAll_ils (o : Origin) (ps : List Posting) (s : State) : ((s.insertAll o ps).2).ils = s.ils := by
  induction ps generalizing s with
  | nil => rfl
  | cons p ps ih => simp [State.insertAll, ih]
@[simp] theorem State.insertAll_home (o : Origin) (ps : List Posting) (s : State) : ((s.insertAll o ps).2).home = s.home := by
  induction ps generalizing s with
  | nil => rfl
  | cons p ps ih => simp [State.insertAll, ih]
@[simp] theorem State.insertAll_trips (o : Origin) (ps : List Posting) (s : State) : ((s.insertAll o ps).2).trips = s.trips := by
  induction ps generalizing s with
  | nil => rfl
  | cons p ps ih => simp [State.insertAll, ih]
@[simp] theorem State.insertAll_accs (o : Origin) (ps : List Posting) (s : State) : ((s.insertAll o ps).2).accs = s.accs := by
  induction ps generalizing s with
  | nil => rfl
  | cons p ps ih => simp [State.insertAll, ih]
@[simp] theorem State.insertAll_seq (o : Origin) (ps : List Posting) (s : State) : ((s.insertAll o ps).2).seq = s.seq := by
  induction ps generalizing s with
  | nil => rfl
  | cons p ps ih => simp [State.insertAll, ih]
@[simp] theorem State.insertAll_check (o : Origin) (ps : List Posting) (s : State) : ((s.insertAll o ps).2).check = s.check := by
  induction ps generalizing s with
  | nil => rfl
  | cons p ps ih => simp [State.insertAll, ih]
@[simp] theorem State.insertAll_ctl (o : Origin) (ps : List Posting) (s : State) : ((s.insertAll o ps).2).ctl = s.ctl := by
  induction ps generalizing s with
  | nil => rfl
  | cons p ps ih => simp [State.insertAll, ih]
@[simp] theorem State.insertAll_pins (o : Origin) (ps : List Posting) (s : State) : ((s.insertAll o ps).2).pins = s.pins := by
  induction ps generalizing s with
  | nil => rfl
  | cons p ps ih => simp [State.insertAll, ih]
@[simp] theorem State.insertAll_freeCount (o : Origin) (ps : List Posting) (s : State) : ((s.insertAll o ps).2).freeCount = s.freeCount := by
  induction ps generalizing s with
  | nil => rfl
  | cons p ps ih => simp [State.insertAll, ih]

/-! ### applyReleased -/

@[simp] theorem State.applyReleased_pending (l : List Entry) (s : State) : (s.applyReleased l).pending = s.pending := rfl
@[simp] theorem State.applyReleased_tb (l : List Entry) (s : State) : (s.applyReleased l).tb = s.tb := rfl
@[simp] theorem State.applyReleased_queue (l : List Entry) (s : State) : (s.applyReleased l).queue = s.queue := rfl
@[simp] theorem State.applyReleased_outs (l : List Entry) (s : State) : (s.applyReleased l).outs = s.outs := rfl
@[simp] theorem State.applyReleased_senses (l : List Entry) (s : State) : (s.applyReleased l).senses = s.senses := rfl
@[simp] theorem State.applyReleased_sampler (l : List Entry) (s : State) : (s.applyReleased l).sampler = s.sampler := rfl
@[simp] theorem State.applyReleased_ils (l : List Entry) (s : State) : (s.applyReleased l).ils = s.ils := rfl
@[simp] theorem State.applyReleased_home (l : List Entry) (s : State) : (s.applyReleased l).home = s.home := rfl
@[simp] theorem State.applyReleased_trips (l : List Entry) (s : State) : (s.applyReleased l).trips = s.trips := rfl
@[simp] theorem State.applyReleased_accs (l : List Entry) (s : State) : (s.applyReleased l).accs = s.accs := rfl
@[simp] theorem State.applyReleased_seq (l : List Entry) (s : State) : (s.applyReleased l).seq = s.seq := rfl
@[simp] theorem State.applyReleased_check (l : List Entry) (s : State) : (s.applyReleased l).check = s.check := rfl
@[simp] theorem State.applyReleased_ctl (l : List Entry) (s : State) : (s.applyReleased l).ctl = s.ctl := rfl
@[simp] theorem State.applyReleased_link (l : List Entry) (s : State) : (s.applyReleased l).link = s.link := rfl
@[simp] theorem State.applyReleased_pins (l : List Entry) (s : State) : (s.applyReleased l).pins = s.pins := rfl
@[simp] theorem State.applyReleased_freeCount (l : List Entry) (s : State) : (s.applyReleased l).freeCount = s.freeCount := rfl

/-! ### rampSteps -/

@[simp] theorem State.rampSteps_pending (b s : State) : (State.rampSteps b s).pending = s.pending := rfl
@[simp] theorem State.rampSteps_tb (b s : State) : (State.rampSteps b s).tb = s.tb := rfl
@[simp] theorem State.rampSteps_queue (b s : State) : (State.rampSteps b s).queue = s.queue := rfl
@[simp] theorem State.rampSteps_outs (b s : State) : (State.rampSteps b s).outs = s.outs := rfl
@[simp] theorem State.rampSteps_senses (b s : State) : (State.rampSteps b s).senses = s.senses := rfl
@[simp] theorem State.rampSteps_sampler (b s : State) : (State.rampSteps b s).sampler = s.sampler := rfl
@[simp] theorem State.rampSteps_ils (b s : State) : (State.rampSteps b s).ils = s.ils := rfl
@[simp] theorem State.rampSteps_home (b s : State) : (State.rampSteps b s).home = s.home := rfl
@[simp] theorem State.rampSteps_trips (b s : State) : (State.rampSteps b s).trips = s.trips := rfl
@[simp] theorem State.rampSteps_accs (b s : State) : (State.rampSteps b s).accs = s.accs := rfl
@[simp] theorem State.rampSteps_seq (b s : State) : (State.rampSteps b s).seq = s.seq := rfl
@[simp] theorem State.rampSteps_check (b s : State) : (State.rampSteps b s).check = s.check := rfl
@[simp] theorem State.rampSteps_ctl (b s : State) : (State.rampSteps b s).ctl = s.ctl := rfl
@[simp] theorem State.rampSteps_link (b s : State) : (State.rampSteps b s).link = s.link := rfl
@[simp] theorem State.rampSteps_pins (b s : State) : (State.rampSteps b s).pins = s.pins := rfl
@[simp] theorem State.rampSteps_freeCount (b s : State) : (State.rampSteps b s).freeCount = s.freeCount := rfl

/-! ### endStop -/

@[simp] theorem State.endStop_pending (c : ChanId) (s : State) : (s.endStop c).pending = s.pending := by
  unfold State.endStop; split <;> rfl
@[simp] theorem State.endStop_tb (c : ChanId) (s : State) : (s.endStop c).tb = s.tb := by
  unfold State.endStop; split <;> rfl
@[simp] theorem State.endStop_queue (c : ChanId) (s : State) : (s.endStop c).queue = s.queue := by
  unfold State.endStop; split <;> rfl
@[simp] theorem State.endStop_senses (c : ChanId) (s : State) : (s.endStop c).senses = s.senses := by
  unfold State.endStop; split <;> rfl
@[simp] theorem State.endStop_sampler (c : ChanId) (s : State) : (s.endStop c).sampler = s.sampler := by
  unfold State.endStop; split <;> rfl
@[simp] theorem State.endStop_ils (c : ChanId) (s : State) : (s.endStop c).ils = s.ils := by
  unfold State.endStop; split <;> rfl
@[simp] theorem State.endStop_home (c : ChanId) (s : State) : (s.endStop c).home = s.home := by
  unfold State.endStop; split <;> rfl
@[simp] theorem State.endStop_trips (c : ChanId) (s : State) : (s.endStop c).trips = s.trips := by
  unfold State.endStop; split <;> rfl
@[simp] theorem State.endStop_accs (c : ChanId) (s : State) : (s.endStop c).accs = s.accs := by
  unfold State.endStop; split <;> rfl
@[simp] theorem State.endStop_seq (c : ChanId) (s : State) : (s.endStop c).seq = s.seq := by
  unfold State.endStop; split <;> rfl
@[simp] theorem State.endStop_check (c : ChanId) (s : State) : (s.endStop c).check = s.check := by
  unfold State.endStop; split <;> rfl
@[simp] theorem State.endStop_ctl (c : ChanId) (s : State) : (s.endStop c).ctl = s.ctl := by
  unfold State.endStop; split <;> rfl
@[simp] theorem State.endStop_link (c : ChanId) (s : State) : (s.endStop c).link = s.link := by
  unfold State.endStop; split <;> rfl
@[simp] theorem State.endStop_pins (c : ChanId) (s : State) : (s.endStop c).pins = s.pins := by
  unfold State.endStop; split <;> rfl
@[simp] theorem State.endStop_freeCount (c : ChanId) (s : State) : (s.endStop c).freeCount = s.freeCount := by
  unfold State.endStop; split <;> rfl

/-! ### adoptConfigs -/

@[simp] theorem State.adoptConfigs_pending (s : State) : (s.adoptConfigs).pending = s.pending := rfl
@[simp] theorem State.adoptConfigs_tb (s : State) : (s.adoptConfigs).tb = s.tb := rfl
@[simp] theorem State.adoptConfigs_queue (s : State) : (s.adoptConfigs).queue = s.queue := rfl
@[simp] theorem State.adoptConfigs_outs (s : State) : (s.adoptConfigs).outs = s.outs := rfl
@[simp] theorem State.adoptConfigs_senses (s : State) : (s.adoptConfigs).senses = s.senses := rfl
@[simp] theorem State.adoptConfigs_sampler (s : State) : (s.adoptConfigs).sampler = s.sampler := rfl
@[simp] theorem State.adoptConfigs_ils (s : State) : (s.adoptConfigs).ils = s.ils := rfl
@[simp] theorem State.adoptConfigs_home (s : State) : (s.adoptConfigs).home = s.home := rfl
@[simp] theorem State.adoptConfigs_trips (s : State) : (s.adoptConfigs).trips = s.trips := rfl
@[simp] theorem State.adoptConfigs_seq (s : State) : (s.adoptConfigs).seq = s.seq := rfl
@[simp] theorem State.adoptConfigs_check (s : State) : (s.adoptConfigs).check = s.check := rfl
@[simp] theorem State.adoptConfigs_ctl (s : State) : (s.adoptConfigs).ctl = s.ctl := rfl
@[simp] theorem State.adoptConfigs_link (s : State) : (s.adoptConfigs).link = s.link := rfl
@[simp] theorem State.adoptConfigs_pins (s : State) : (s.adoptConfigs).pins = s.pins := rfl
@[simp] theorem State.adoptConfigs_freeCount (s : State) : (s.adoptConfigs).freeCount = s.freeCount := rfl

/-! ### writeConfig -/

@[simp] theorem State.writeConfig_pending (c : ChanId) (g : ChanCfg) (s : State) : (s.writeConfig c g).pending = s.pending := rfl
@[simp] theorem State.writeConfig_tb (c : ChanId) (g : ChanCfg) (s : State) : (s.writeConfig c g).tb = s.tb := rfl
@[simp] theorem State.writeConfig_queue (c : ChanId) (g : ChanCfg) (s : State) : (s.writeConfig c g).queue = s.queue := rfl
@[simp] theorem State.writeConfig_senses (c : ChanId) (g : ChanCfg) (s : State) : (s.writeConfig c g).senses = s.senses := rfl
@[simp] theorem State.writeConfig_sampler (c : ChanId) (g : ChanCfg) (s : State) : (s.writeConfig c g).sampler = s.sampler := rfl
@[simp] theorem State.writeConfig_ils (c : ChanId) (g : ChanCfg) (s : State) : (s.writeConfig c g).ils = s.ils := rfl
@[simp] theorem State.writeConfig_home (c : ChanId) (g : ChanCfg) (s : State) : (s.writeConfig c g).home = s.home := rfl
@[simp] theorem State.writeConfig_trips (c : ChanId) (g : ChanCfg) (s : State) : (s.writeConfig c g).trips = s.trips := rfl
@[simp] theorem State.writeConfig_seq (c : ChanId) (g : ChanCfg) (s : State) : (s.writeConfig c g).seq = s.seq := rfl
@[simp] theorem State.writeConfig_check (c : ChanId) (g : ChanCfg) (s : State) : (s.writeConfig c g).check = s.check := rfl
@[simp] theorem State.writeConfig_ctl (c : ChanId) (g : ChanCfg) (s : State) : (s.writeConfig c g).ctl = s.ctl := rfl
@[simp] theorem State.writeConfig_link (c : ChanId) (g : ChanCfg) (s : State) : (s.writeConfig c g).link = s.link := rfl
@[simp] theorem State.writeConfig_pins (c : ChanId) (g : ChanCfg) (s : State) : (s.writeConfig c g).pins = s.pins := rfl
@[simp] theorem State.writeConfig_freeCount (c : ChanId) (g : ChanCfg) (s : State) : (s.writeConfig c g).freeCount = s.freeCount := rfl

/-! ### stageConfig -/

@[simp] theorem State.stageConfig_pending (c : ChanId) (g : ChanCfg) (s : State) : (s.stageConfig c g).pending = s.pending := rfl
@[simp] theorem State.stageConfig_tb (c : ChanId) (g : ChanCfg) (s : State) : (s.stageConfig c g).tb = s.tb := rfl
@[simp] theorem State.stageConfig_queue (c : ChanId) (g : ChanCfg) (s : State) : (s.stageConfig c g).queue = s.queue := rfl
@[simp] theorem State.stageConfig_outs (c : ChanId) (g : ChanCfg) (s : State) : (s.stageConfig c g).outs = s.outs := rfl
@[simp] theorem State.stageConfig_senses (c : ChanId) (g : ChanCfg) (s : State) : (s.stageConfig c g).senses = s.senses := rfl
@[simp] theorem State.stageConfig_sampler (c : ChanId) (g : ChanCfg) (s : State) : (s.stageConfig c g).sampler = s.sampler := rfl
@[simp] theorem State.stageConfig_ils (c : ChanId) (g : ChanCfg) (s : State) : (s.stageConfig c g).ils = s.ils := rfl
@[simp] theorem State.stageConfig_home (c : ChanId) (g : ChanCfg) (s : State) : (s.stageConfig c g).home = s.home := rfl
@[simp] theorem State.stageConfig_trips (c : ChanId) (g : ChanCfg) (s : State) : (s.stageConfig c g).trips = s.trips := rfl
@[simp] theorem State.stageConfig_accs (c : ChanId) (g : ChanCfg) (s : State) : (s.stageConfig c g).accs = s.accs := rfl
@[simp] theorem State.stageConfig_seq (c : ChanId) (g : ChanCfg) (s : State) : (s.stageConfig c g).seq = s.seq := rfl
@[simp] theorem State.stageConfig_check (c : ChanId) (g : ChanCfg) (s : State) : (s.stageConfig c g).check = s.check := rfl
@[simp] theorem State.stageConfig_ctl (c : ChanId) (g : ChanCfg) (s : State) : (s.stageConfig c g).ctl = s.ctl := rfl
@[simp] theorem State.stageConfig_link (c : ChanId) (g : ChanCfg) (s : State) : (s.stageConfig c g).link = s.link := rfl
@[simp] theorem State.stageConfig_pins (c : ChanId) (g : ChanCfg) (s : State) : (s.stageConfig c g).pins = s.pins := rfl
@[simp] theorem State.stageConfig_freeCount (c : ChanId) (g : ChanCfg) (s : State) : (s.stageConfig c g).freeCount = s.freeCount := rfl

/-! ### clearClamped -/

@[simp] theorem State.clearClamped_pending (c : ChanId) (s : State) : (s.clearClamped c).pending = s.pending := rfl
@[simp] theorem State.clearClamped_tb (c : ChanId) (s : State) : (s.clearClamped c).tb = s.tb := rfl
@[simp] theorem State.clearClamped_queue (c : ChanId) (s : State) : (s.clearClamped c).queue = s.queue := rfl
@[simp] theorem State.clearClamped_outs (c : ChanId) (s : State) : (s.clearClamped c).outs = s.outs := rfl
@[simp] theorem State.clearClamped_senses (c : ChanId) (s : State) : (s.clearClamped c).senses = s.senses := rfl
@[simp] theorem State.clearClamped_sampler (c : ChanId) (s : State) : (s.clearClamped c).sampler = s.sampler := rfl
@[simp] theorem State.clearClamped_ils (c : ChanId) (s : State) : (s.clearClamped c).ils = s.ils := rfl
@[simp] theorem State.clearClamped_home (c : ChanId) (s : State) : (s.clearClamped c).home = s.home := rfl
@[simp] theorem State.clearClamped_trips (c : ChanId) (s : State) : (s.clearClamped c).trips = s.trips := rfl
@[simp] theorem State.clearClamped_accs (c : ChanId) (s : State) : (s.clearClamped c).accs = s.accs := rfl
@[simp] theorem State.clearClamped_seq (c : ChanId) (s : State) : (s.clearClamped c).seq = s.seq := rfl
@[simp] theorem State.clearClamped_check (c : ChanId) (s : State) : (s.clearClamped c).check = s.check := rfl
@[simp] theorem State.clearClamped_ctl (c : ChanId) (s : State) : (s.clearClamped c).ctl = s.ctl := rfl
@[simp] theorem State.clearClamped_link (c : ChanId) (s : State) : (s.clearClamped c).link = s.link := rfl
@[simp] theorem State.clearClamped_pins (c : ChanId) (s : State) : (s.clearClamped c).pins = s.pins := rfl
@[simp] theorem State.clearClamped_freeCount (c : ChanId) (s : State) : (s.clearClamped c).freeCount = s.freeCount := rfl

/-! ### dropPosting -/

@[simp] theorem State.dropPosting_pending (l : LineId) (s : State) : (s.dropPosting l).pending = s.pending := rfl
@[simp] theorem State.dropPosting_tb (l : LineId) (s : State) : (s.dropPosting l).tb = s.tb := rfl
@[simp] theorem State.dropPosting_queue (l : LineId) (s : State) : (s.dropPosting l).queue = s.queue := rfl
@[simp] theorem State.dropPosting_chans (l : LineId) (s : State) : (s.dropPosting l).chans = s.chans := rfl
@[simp] theorem State.dropPosting_outs (l : LineId) (s : State) : (s.dropPosting l).outs = s.outs := rfl
@[simp] theorem State.dropPosting_senses (l : LineId) (s : State) : (s.dropPosting l).senses = s.senses := rfl
@[simp] theorem State.dropPosting_sampler (l : LineId) (s : State) : (s.dropPosting l).sampler = s.sampler := rfl
@[simp] theorem State.dropPosting_ils (l : LineId) (s : State) : (s.dropPosting l).ils = s.ils := rfl
@[simp] theorem State.dropPosting_home (l : LineId) (s : State) : (s.dropPosting l).home = s.home := rfl
@[simp] theorem State.dropPosting_trips (l : LineId) (s : State) : (s.dropPosting l).trips = s.trips := rfl
@[simp] theorem State.dropPosting_accs (l : LineId) (s : State) : (s.dropPosting l).accs = s.accs := rfl
@[simp] theorem State.dropPosting_check (l : LineId) (s : State) : (s.dropPosting l).check = s.check := rfl
@[simp] theorem State.dropPosting_ctl (l : LineId) (s : State) : (s.dropPosting l).ctl = s.ctl := rfl
@[simp] theorem State.dropPosting_pins (l : LineId) (s : State) : (s.dropPosting l).pins = s.pins := rfl
@[simp] theorem State.dropPosting_freeCount (l : LineId) (s : State) : (s.dropPosting l).freeCount = s.freeCount := rfl

/-! ### placePosting -/

@[simp] theorem State.placePosting_pending (l : LineId) (r : PostRec) (s : State) : ((s.placePosting l r).2).pending = s.pending := by
  unfold State.placePosting; try dsimp only
  repeat' (split; try dsimp only)
  all_goals simp
@[simp] theorem State.placePosting_tb (l : LineId) (r : PostRec) (s : State) : ((s.placePosting l r).2).tb = s.tb := by
  unfold State.placePosting; try dsimp only
  repeat' (split; try dsimp only)
  all_goals simp
@[simp] theorem State.placePosting_chans (l : LineId) (r : PostRec) (s : State) : ((s.placePosting l r).2).chans = s.chans := by
  unfold State.placePosting; try dsimp only
  repeat' (split; try dsimp only)
  all_goals simp
@[simp] theorem State.placePosting_outs (l : LineId) (r : PostRec) (s : State) : ((s.placePosting l r).2).outs = s.outs := by
  unfold State.placePosting; try dsimp only
  repeat' (split; try dsimp only)
  all_goals simp
@[simp] theorem State.placePosting_senses (l : LineId) (r : PostRec) (s : State) : ((s.placePosting l r).2).senses = s.senses := by
  unfold State.placePosting; try dsimp only
  repeat' (split; try dsimp only)
  all_goals simp
@[simp] theorem State.placePosting_sampler (l : LineId) (r : PostRec) (s : State) : ((s.placePosting l r).2).sampler = s.sampler := by
  unfold State.placePosting; try dsimp only
  repeat' (split; try dsimp only)
  all_goals simp
@[simp] theorem State.placePosting_ils (l : LineId) (r : PostRec) (s : State) : ((s.placePosting l r).2).ils = s.ils := by
  unfold State.placePosting; try dsimp only
  repeat' (split; try dsimp only)
  all_goals simp
@[simp] theorem State.placePosting_home (l : LineId) (r : PostRec) (s : State) : ((s.placePosting l r).2).home = s.home := by
  unfold State.placePosting; try dsimp only
  repeat' (split; try dsimp only)
  all_goals simp
@[simp] theorem State.placePosting_trips (l : LineId) (r : PostRec) (s : State) : ((s.placePosting l r).2).trips = s.trips := by
  unfold State.placePosting; try dsimp only
  repeat' (split; try dsimp only)
  all_goals simp
@[simp] theorem State.placePosting_accs (l : LineId) (r : PostRec) (s : State) : ((s.placePosting l r).2).accs = s.accs := by
  unfold State.placePosting; try dsimp only
  repeat' (split; try dsimp only)
  all_goals simp
@[simp] theorem State.placePosting_check (l : LineId) (r : PostRec) (s : State) : ((s.placePosting l r).2).check = s.check := by
  unfold State.placePosting; try dsimp only
  repeat' (split; try dsimp only)
  all_goals simp
@[simp] theorem State.placePosting_ctl (l : LineId) (r : PostRec) (s : State) : ((s.placePosting l r).2).ctl = s.ctl := by
  unfold State.placePosting; try dsimp only
  repeat' (split; try dsimp only)
  all_goals simp
@[simp] theorem State.placePosting_pins (l : LineId) (r : PostRec) (s : State) : ((s.placePosting l r).2).pins = s.pins := by
  unfold State.placePosting; try dsimp only
  repeat' (split; try dsimp only)
  all_goals simp
@[simp] theorem State.placePosting_freeCount (l : LineId) (r : PostRec) (s : State) : ((s.placePosting l r).2).freeCount = s.freeCount := by
  unfold State.placePosting; try dsimp only
  repeat' (split; try dsimp only)
  all_goals simp

/-! ### placePostings -/

@[simp] theorem State.placePostings_pending (l : LineId) (rs : List PostRec) (s : State) : ((State.placePostings l rs s).2).pending = s.pending := by
  induction rs generalizing s with
  | nil => rfl
  | cons r rs ih => simp [State.placePostings, ih]
@[simp] theorem State.placePostings_tb (l : LineId) (rs : List PostRec) (s : State) : ((State.placePostings l rs s).2).tb = s.tb := by
  induction rs generalizing s with
  | nil => rfl
  | cons r rs ih => simp [State.placePostings, ih]
@[simp] theorem State.placePostings_chans (l : LineId) (rs : List PostRec) (s : State) : ((State.placePostings l rs s).2).chans = s.chans := by
  induction rs generalizing s with
  | nil => rfl
  | cons r rs ih => simp [State.placePostings, ih]
@[simp] theorem State.placePostings_outs (l : LineId) (rs : List PostRec) (s : State) : ((State.placePostings l rs s).2).outs = s.outs := by
  induction rs generalizing s with
  | nil => rfl
  | cons r rs ih => simp [State.placePostings, ih]
@[simp] theorem State.placePostings_senses (l : LineId) (rs : List PostRec) (s : State) : ((State.placePostings l rs s).2).senses = s.senses := by
  induction rs generalizing s with
  | nil => rfl
  | cons r rs ih => simp [State.placePostings, ih]
@[simp] theorem State.placePostings_sampler (l : LineId) (rs : List PostRec) (s : State) : ((State.placePostings l rs s).2).sampler = s.sampler := by
  induction rs generalizing s with
  | nil => rfl
  | cons r rs ih => simp [State.placePostings, ih]
@[simp] theorem State.placePostings_ils (l : LineId) (rs : List PostRec) (s : State) : ((State.placePostings l rs s).2).ils = s.ils := by
  induction rs generalizing s with
  | nil => rfl
  | cons r rs ih => simp [State.placePostings, ih]
@[simp] theorem State.placePostings_home (l : LineId) (rs : List PostRec) (s : State) : ((State.placePostings l rs s).2).home = s.home := by
  induction rs generalizing s with
  | nil => rfl
  | cons r rs ih => simp [State.placePostings, ih]
@[simp] theorem State.placePostings_trips (l : LineId) (rs : List PostRec) (s : State) : ((State.placePostings l rs s).2).trips = s.trips := by
  induction rs generalizing s with
  | nil => rfl
  | cons r rs ih => simp [State.placePostings, ih]
@[simp] theorem State.placePostings_accs (l : LineId) (rs : List PostRec) (s : State) : ((State.placePostings l rs s).2).accs = s.accs := by
  induction rs generalizing s with
  | nil => rfl
  | cons r rs ih => simp [State.placePostings, ih]
@[simp] theorem State.placePostings_check (l : LineId) (rs : List PostRec) (s : State) : ((State.placePostings l rs s).2).check = s.check := by
  induction rs generalizing s with
  | nil => rfl
  | cons r rs ih => simp [State.placePostings, ih]
@[simp] theorem State.placePostings_ctl (l : LineId) (rs : List PostRec) (s : State) : ((State.placePostings l rs s).2).ctl = s.ctl := by
  induction rs generalizing s with
  | nil => rfl
  | cons r rs ih => simp [State.placePostings, ih]
@[simp] theorem State.placePostings_pins (l : LineId) (rs : List PostRec) (s : State) : ((State.placePostings l rs s).2).pins = s.pins := by
  induction rs generalizing s with
  | nil => rfl
  | cons r rs ih => simp [State.placePostings, ih]
@[simp] theorem State.placePostings_freeCount (l : LineId) (rs : List PostRec) (s : State) : ((State.placePostings l rs s).2).freeCount = s.freeCount := by
  induction rs generalizing s with
  | nil => rfl
  | cons r rs ih => simp [State.placePostings, ih]

/-! ### enterLine -/

@[simp] theorem State.enterLine_pending (l : LineId) (c : EntryCause) (s : State) : ((s.enterLine l c).2).pending = s.pending := by simp [State.enterLine]
@[simp] theorem State.enterLine_tb (l : LineId) (c : EntryCause) (s : State) : ((s.enterLine l c).2).tb = s.tb := by simp [State.enterLine]
@[simp] theorem State.enterLine_chans (l : LineId) (c : EntryCause) (s : State) : ((s.enterLine l c).2).chans = s.chans := by simp [State.enterLine]
@[simp] theorem State.enterLine_outs (l : LineId) (c : EntryCause) (s : State) : ((s.enterLine l c).2).outs = s.outs := by simp [State.enterLine]
@[simp] theorem State.enterLine_senses (l : LineId) (c : EntryCause) (s : State) : ((s.enterLine l c).2).senses = s.senses := by simp [State.enterLine]
@[simp] theorem State.enterLine_sampler (l : LineId) (c : EntryCause) (s : State) : ((s.enterLine l c).2).sampler = s.sampler := by simp [State.enterLine]
@[simp] theorem State.enterLine_ils (l : LineId) (c : EntryCause) (s : State) : ((s.enterLine l c).2).ils = s.ils := by simp [State.enterLine]
@[simp] theorem State.enterLine_home (l : LineId) (c : EntryCause) (s : State) : ((s.enterLine l c).2).home = s.home := by simp [State.enterLine]
@[simp] theorem State.enterLine_trips (l : LineId) (c : EntryCause) (s : State) : ((s.enterLine l c).2).trips = s.trips := by simp [State.enterLine]
@[simp] theorem State.enterLine_accs (l : LineId) (c : EntryCause) (s : State) : ((s.enterLine l c).2).accs = s.accs := by simp [State.enterLine]
@[simp] theorem State.enterLine_check (l : LineId) (c : EntryCause) (s : State) : ((s.enterLine l c).2).check = s.check := by simp [State.enterLine]
@[simp] theorem State.enterLine_ctl (l : LineId) (c : EntryCause) (s : State) : ((s.enterLine l c).2).ctl = s.ctl := by simp [State.enterLine]
@[simp] theorem State.enterLine_pins (l : LineId) (c : EntryCause) (s : State) : ((s.enterLine l c).2).pins = s.pins := by simp [State.enterLine]
@[simp] theorem State.enterLine_freeCount (l : LineId) (c : EntryCause) (s : State) : ((s.enterLine l c).2).freeCount = s.freeCount := by simp [State.enterLine]

/-! ### settleGate -/

@[simp] theorem State.settleGate_pending (b s : State) : (State.settleGate b s).pending = s.pending := rfl
@[simp] theorem State.settleGate_tb (b s : State) : (State.settleGate b s).tb = s.tb := rfl
@[simp] theorem State.settleGate_queue (b s : State) : (State.settleGate b s).queue = s.queue := rfl
@[simp] theorem State.settleGate_chans (b s : State) : (State.settleGate b s).chans = s.chans := rfl
@[simp] theorem State.settleGate_senses (b s : State) : (State.settleGate b s).senses = s.senses := rfl
@[simp] theorem State.settleGate_sampler (b s : State) : (State.settleGate b s).sampler = s.sampler := rfl
@[simp] theorem State.settleGate_ils (b s : State) : (State.settleGate b s).ils = s.ils := rfl
@[simp] theorem State.settleGate_home (b s : State) : (State.settleGate b s).home = s.home := rfl
@[simp] theorem State.settleGate_trips (b s : State) : (State.settleGate b s).trips = s.trips := rfl
@[simp] theorem State.settleGate_accs (b s : State) : (State.settleGate b s).accs = s.accs := rfl
@[simp] theorem State.settleGate_seq (b s : State) : (State.settleGate b s).seq = s.seq := rfl
@[simp] theorem State.settleGate_check (b s : State) : (State.settleGate b s).check = s.check := rfl
@[simp] theorem State.settleGate_ctl (b s : State) : (State.settleGate b s).ctl = s.ctl := rfl
@[simp] theorem State.settleGate_link (b s : State) : (State.settleGate b s).link = s.link := rfl
@[simp] theorem State.settleGate_pins (b s : State) : (State.settleGate b s).pins = s.pins := rfl
@[simp] theorem State.settleGate_freeCount (b s : State) : (State.settleGate b s).freeCount = s.freeCount := rfl

/-! ### enterOutside -/

@[simp] theorem State.enterOutside_pending (l : LineId) (c : EntryCause) (s : State) : ((s.enterOutside l c).2).pending = s.pending := by simp [State.enterOutside]
@[simp] theorem State.enterOutside_tb (l : LineId) (c : EntryCause) (s : State) : ((s.enterOutside l c).2).tb = s.tb := by simp [State.enterOutside]
@[simp] theorem State.enterOutside_chans (l : LineId) (c : EntryCause) (s : State) : ((s.enterOutside l c).2).chans = s.chans := by simp [State.enterOutside]
@[simp] theorem State.enterOutside_senses (l : LineId) (c : EntryCause) (s : State) : ((s.enterOutside l c).2).senses = s.senses := by simp [State.enterOutside]
@[simp] theorem State.enterOutside_sampler (l : LineId) (c : EntryCause) (s : State) : ((s.enterOutside l c).2).sampler = s.sampler := by simp [State.enterOutside]
@[simp] theorem State.enterOutside_ils (l : LineId) (c : EntryCause) (s : State) : ((s.enterOutside l c).2).ils = s.ils := by simp [State.enterOutside]
@[simp] theorem State.enterOutside_home (l : LineId) (c : EntryCause) (s : State) : ((s.enterOutside l c).2).home = s.home := by simp [State.enterOutside]
@[simp] theorem State.enterOutside_trips (l : LineId) (c : EntryCause) (s : State) : ((s.enterOutside l c).2).trips = s.trips := by simp [State.enterOutside]
@[simp] theorem State.enterOutside_accs (l : LineId) (c : EntryCause) (s : State) : ((s.enterOutside l c).2).accs = s.accs := by simp [State.enterOutside]
@[simp] theorem State.enterOutside_check (l : LineId) (c : EntryCause) (s : State) : ((s.enterOutside l c).2).check = s.check := by simp [State.enterOutside]
@[simp] theorem State.enterOutside_ctl (l : LineId) (c : EntryCause) (s : State) : ((s.enterOutside l c).2).ctl = s.ctl := by simp [State.enterOutside]
@[simp] theorem State.enterOutside_pins (l : LineId) (c : EntryCause) (s : State) : ((s.enterOutside l c).2).pins = s.pins := by simp [State.enterOutside]
@[simp] theorem State.enterOutside_freeCount (l : LineId) (c : EntryCause) (s : State) : ((s.enterOutside l c).2).freeCount = s.freeCount := by simp [State.enterOutside]

/-! ### evaluate -/

@[simp] theorem State.evaluate_pending (s : State) : (s.evaluate).pending = s.pending := by
  unfold State.evaluate; try dsimp only
  repeat' (split; try dsimp only)
  all_goals simp
@[simp] theorem State.evaluate_tb (s : State) : (s.evaluate).tb = s.tb := by
  unfold State.evaluate; try dsimp only
  repeat' (split; try dsimp only)
  all_goals simp
@[simp] theorem State.evaluate_chans (s : State) : (s.evaluate).chans = s.chans := by
  unfold State.evaluate; try dsimp only
  repeat' (split; try dsimp only)
  all_goals simp
@[simp] theorem State.evaluate_outs (s : State) : (s.evaluate).outs = s.outs := by
  unfold State.evaluate; try dsimp only
  repeat' (split; try dsimp only)
  all_goals simp
@[simp] theorem State.evaluate_senses (s : State) : (s.evaluate).senses = s.senses := by
  unfold State.evaluate; try dsimp only
  repeat' (split; try dsimp only)
  all_goals simp
@[simp] theorem State.evaluate_sampler (s : State) : (s.evaluate).sampler = s.sampler := by
  unfold State.evaluate; try dsimp only
  repeat' (split; try dsimp only)
  all_goals simp
@[simp] theorem State.evaluate_ils (s : State) : (s.evaluate).ils = s.ils := by
  unfold State.evaluate; try dsimp only
  repeat' (split; try dsimp only)
  all_goals simp
@[simp] theorem State.evaluate_home (s : State) : (s.evaluate).home = s.home := by
  unfold State.evaluate; try dsimp only
  repeat' (split; try dsimp only)
  all_goals simp
@[simp] theorem State.evaluate_trips (s : State) : (s.evaluate).trips = s.trips := by
  unfold State.evaluate; try dsimp only
  repeat' (split; try dsimp only)
  all_goals simp
@[simp] theorem State.evaluate_accs (s : State) : (s.evaluate).accs = s.accs := by
  unfold State.evaluate; try dsimp only
  repeat' (split; try dsimp only)
  all_goals simp
@[simp] theorem State.evaluate_check (s : State) : (s.evaluate).check = s.check := by
  unfold State.evaluate; try dsimp only
  repeat' (split; try dsimp only)
  all_goals simp
@[simp] theorem State.evaluate_ctl (s : State) : (s.evaluate).ctl = s.ctl := by
  unfold State.evaluate; try dsimp only
  repeat' (split; try dsimp only)
  all_goals simp
@[simp] theorem State.evaluate_pins (s : State) : (s.evaluate).pins = s.pins := by
  unfold State.evaluate; try dsimp only
  repeat' (split; try dsimp only)
  all_goals simp
@[simp] theorem State.evaluate_freeCount (s : State) : (s.evaluate).freeCount = s.freeCount := by
  unfold State.evaluate; try dsimp only
  repeat' (split; try dsimp only)
  all_goals simp

/-! ### homeLow -/

@[simp] theorem State.homeLow_pending (s : State) : (s.homeLow).pending = s.pending := by
  unfold State.homeLow; try dsimp only
  repeat' (split; try dsimp only)
  all_goals simp
@[simp] theorem State.homeLow_tb (s : State) : (s.homeLow).tb = s.tb := by
  unfold State.homeLow; try dsimp only
  repeat' (split; try dsimp only)
  all_goals simp
@[simp] theorem State.homeLow_chans (s : State) : (s.homeLow).chans = s.chans := by
  unfold State.homeLow; try dsimp only
  repeat' (split; try dsimp only)
  all_goals simp
@[simp] theorem State.homeLow_senses (s : State) : (s.homeLow).senses = s.senses := by
  unfold State.homeLow; try dsimp only
  repeat' (split; try dsimp only)
  all_goals simp
@[simp] theorem State.homeLow_sampler (s : State) : (s.homeLow).sampler = s.sampler := by
  unfold State.homeLow; try dsimp only
  repeat' (split; try dsimp only)
  all_goals simp
@[simp] theorem State.homeLow_ils (s : State) : (s.homeLow).ils = s.ils := by
  unfold State.homeLow; try dsimp only
  repeat' (split; try dsimp only)
  all_goals simp
@[simp] theorem State.homeLow_home (s : State) : (s.homeLow).home = s.home := by
  unfold State.homeLow; try dsimp only
  repeat' (split; try dsimp only)
  all_goals simp
@[simp] theorem State.homeLow_trips (s : State) : (s.homeLow).trips = s.trips := by
  unfold State.homeLow; try dsimp only
  repeat' (split; try dsimp only)
  all_goals simp
@[simp] theorem State.homeLow_accs (s : State) : (s.homeLow).accs = s.accs := by
  unfold State.homeLow; try dsimp only
  repeat' (split; try dsimp only)
  all_goals simp
@[simp] theorem State.homeLow_check (s : State) : (s.homeLow).check = s.check := by
  unfold State.homeLow; try dsimp only
  repeat' (split; try dsimp only)
  all_goals simp
@[simp] theorem State.homeLow_ctl (s : State) : (s.homeLow).ctl = s.ctl := by
  unfold State.homeLow; try dsimp only
  repeat' (split; try dsimp only)
  all_goals simp
@[simp] theorem State.homeLow_pins (s : State) : (s.homeLow).pins = s.pins := by
  unfold State.homeLow; try dsimp only
  repeat' (split; try dsimp only)
  all_goals simp
@[simp] theorem State.homeLow_freeCount (s : State) : (s.homeLow).freeCount = s.freeCount := by
  unfold State.homeLow; try dsimp only
  repeat' (split; try dsimp only)
  all_goals simp

/-! ### homeHigh -/

@[simp] theorem State.homeHigh_pending (s : State) : (s.homeHigh).pending = s.pending := by
  unfold State.homeHigh; split <;> rfl
@[simp] theorem State.homeHigh_tb (s : State) : (s.homeHigh).tb = s.tb := by
  unfold State.homeHigh; split <;> rfl
@[simp] theorem State.homeHigh_queue (s : State) : (s.homeHigh).queue = s.queue := by
  unfold State.homeHigh; split <;> rfl
@[simp] theorem State.homeHigh_chans (s : State) : (s.homeHigh).chans = s.chans := by
  unfold State.homeHigh; split <;> rfl
@[simp] theorem State.homeHigh_outs (s : State) : (s.homeHigh).outs = s.outs := by
  unfold State.homeHigh; split <;> rfl
@[simp] theorem State.homeHigh_senses (s : State) : (s.homeHigh).senses = s.senses := by
  unfold State.homeHigh; split <;> rfl
@[simp] theorem State.homeHigh_sampler (s : State) : (s.homeHigh).sampler = s.sampler := by
  unfold State.homeHigh; split <;> rfl
@[simp] theorem State.homeHigh_ils (s : State) : (s.homeHigh).ils = s.ils := by
  unfold State.homeHigh; split <;> rfl
@[simp] theorem State.homeHigh_home (s : State) : (s.homeHigh).home = s.home := by
  unfold State.homeHigh; split <;> rfl
@[simp] theorem State.homeHigh_trips (s : State) : (s.homeHigh).trips = s.trips := by
  unfold State.homeHigh; split <;> rfl
@[simp] theorem State.homeHigh_accs (s : State) : (s.homeHigh).accs = s.accs := by
  unfold State.homeHigh; split <;> rfl
@[simp] theorem State.homeHigh_check (s : State) : (s.homeHigh).check = s.check := by
  unfold State.homeHigh; split <;> rfl
@[simp] theorem State.homeHigh_ctl (s : State) : (s.homeHigh).ctl = s.ctl := by
  unfold State.homeHigh; split <;> rfl
@[simp] theorem State.homeHigh_link (s : State) : (s.homeHigh).link = s.link := by
  unfold State.homeHigh; split <;> rfl
@[simp] theorem State.homeHigh_pins (s : State) : (s.homeHigh).pins = s.pins := by
  unfold State.homeHigh; split <;> rfl
@[simp] theorem State.homeHigh_freeCount (s : State) : (s.homeHigh).freeCount = s.freeCount := by
  unfold State.homeHigh; split <;> rfl

/-! ### arm -/

@[simp] theorem State.arm_pending (l : LineId) (s : State) : ((s.arm l).2).pending = s.pending := by
  unfold State.arm; try dsimp only
  repeat' (split; try dsimp only)
  all_goals simp
@[simp] theorem State.arm_tb (l : LineId) (s : State) : ((s.arm l).2).tb = s.tb := by
  unfold State.arm; try dsimp only
  repeat' (split; try dsimp only)
  all_goals simp
@[simp] theorem State.arm_chans (l : LineId) (s : State) : ((s.arm l).2).chans = s.chans := by
  unfold State.arm; try dsimp only
  repeat' (split; try dsimp only)
  all_goals simp
@[simp] theorem State.arm_senses (l : LineId) (s : State) : ((s.arm l).2).senses = s.senses := by
  unfold State.arm; try dsimp only
  repeat' (split; try dsimp only)
  all_goals simp
@[simp] theorem State.arm_sampler (l : LineId) (s : State) : ((s.arm l).2).sampler = s.sampler := by
  unfold State.arm; try dsimp only
  repeat' (split; try dsimp only)
  all_goals simp
@[simp] theorem State.arm_ils (l : LineId) (s : State) : ((s.arm l).2).ils = s.ils := by
  unfold State.arm; try dsimp only
  repeat' (split; try dsimp only)
  all_goals simp
@[simp] theorem State.arm_home (l : LineId) (s : State) : ((s.arm l).2).home = s.home := by
  unfold State.arm; try dsimp only
  repeat' (split; try dsimp only)
  all_goals simp
@[simp] theorem State.arm_trips (l : LineId) (s : State) : ((s.arm l).2).trips = s.trips := by
  unfold State.arm; try dsimp only
  repeat' (split; try dsimp only)
  all_goals simp
@[simp] theorem State.arm_accs (l : LineId) (s : State) : ((s.arm l).2).accs = s.accs := by
  unfold State.arm; try dsimp only
  repeat' (split; try dsimp only)
  all_goals simp
@[simp] theorem State.arm_check (l : LineId) (s : State) : ((s.arm l).2).check = s.check := by
  unfold State.arm; try dsimp only
  repeat' (split; try dsimp only)
  all_goals simp
@[simp] theorem State.arm_ctl (l : LineId) (s : State) : ((s.arm l).2).ctl = s.ctl := by
  unfold State.arm; try dsimp only
  repeat' (split; try dsimp only)
  all_goals simp
@[simp] theorem State.arm_pins (l : LineId) (s : State) : ((s.arm l).2).pins = s.pins := by
  unfold State.arm; try dsimp only
  repeat' (split; try dsimp only)
  all_goals simp
@[simp] theorem State.arm_freeCount (l : LineId) (s : State) : ((s.arm l).2).freeCount = s.freeCount := by
  unfold State.arm; try dsimp only
  repeat' (split; try dsimp only)
  all_goals simp

/-! ### offerAddition -/

@[simp] theorem State.offerAddition_pending (b s : State) (c : ChanId) : (State.offerAddition b s c).pending = s.pending := by simp [State.offerAddition]
@[simp] theorem State.offerAddition_tb (b s : State) (c : ChanId) : (State.offerAddition b s c).tb = s.tb := by simp [State.offerAddition]
@[simp] theorem State.offerAddition_queue (b s : State) (c : ChanId) : (State.offerAddition b s c).queue = s.queue := by simp [State.offerAddition]
@[simp] theorem State.offerAddition_chans (b s : State) (c : ChanId) : (State.offerAddition b s c).chans = s.chans := by simp [State.offerAddition]
@[simp] theorem State.offerAddition_outs (b s : State) (c : ChanId) : (State.offerAddition b s c).outs = s.outs := by simp [State.offerAddition]
@[simp] theorem State.offerAddition_senses (b s : State) (c : ChanId) : (State.offerAddition b s c).senses = s.senses := by simp [State.offerAddition]
@[simp] theorem State.offerAddition_sampler (b s : State) (c : ChanId) : (State.offerAddition b s c).sampler = s.sampler := by simp [State.offerAddition]
@[simp] theorem State.offerAddition_ils (b s : State) (c : ChanId) : (State.offerAddition b s c).ils = s.ils := by simp [State.offerAddition]
@[simp] theorem State.offerAddition_home (b s : State) (c : ChanId) : (State.offerAddition b s c).home = s.home := by simp [State.offerAddition]
@[simp] theorem State.offerAddition_trips (b s : State) (c : ChanId) : (State.offerAddition b s c).trips = s.trips := by simp [State.offerAddition]
@[simp] theorem State.offerAddition_accs (b s : State) (c : ChanId) : (State.offerAddition b s c).accs = s.accs := by simp [State.offerAddition]
@[simp] theorem State.offerAddition_seq (b s : State) (c : ChanId) : (State.offerAddition b s c).seq = s.seq := by simp [State.offerAddition]
@[simp] theorem State.offerAddition_check (b s : State) (c : ChanId) : (State.offerAddition b s c).check = s.check := by simp [State.offerAddition]
@[simp] theorem State.offerAddition_ctl (b s : State) (c : ChanId) : (State.offerAddition b s c).ctl = s.ctl := by simp [State.offerAddition]
@[simp] theorem State.offerAddition_pins (b s : State) (c : ChanId) : (State.offerAddition b s c).pins = s.pins := by simp [State.offerAddition]
@[simp] theorem State.offerAddition_freeCount (b s : State) (c : ChanId) : (State.offerAddition b s c).freeCount = s.freeCount := by simp [State.offerAddition]

/-- Offering the occurrences of a list of additions changes the Link Unit alone. -/
theorem State.foldl_offerAddition (b : State) (cs : List ChanId) (s : State) :
    cs.foldl (State.offerAddition b) s = { s with link := (cs.foldl (State.offerAddition b) s).link } := by
  induction cs generalizing s with
  | nil => rfl
  | cons c cs ih =>
    rw [List.foldl_cons, ih]
    unfold State.offerAddition State.offerIf
    repeat' split
    all_goals rfl

/-! ### accumulate -/

@[simp] theorem State.accumulate_pending (b s : State) : (State.accumulate b s).pending = s.pending := by
  unfold State.accumulate; rw [State.foldl_offerAddition]
@[simp] theorem State.accumulate_tb (b s : State) : (State.accumulate b s).tb = s.tb := by
  unfold State.accumulate; rw [State.foldl_offerAddition]
@[simp] theorem State.accumulate_queue (b s : State) : (State.accumulate b s).queue = s.queue := by
  unfold State.accumulate; rw [State.foldl_offerAddition]
@[simp] theorem State.accumulate_chans (b s : State) : (State.accumulate b s).chans = s.chans := by
  unfold State.accumulate; rw [State.foldl_offerAddition]
@[simp] theorem State.accumulate_outs (b s : State) : (State.accumulate b s).outs = s.outs := by
  unfold State.accumulate; rw [State.foldl_offerAddition]
@[simp] theorem State.accumulate_senses (b s : State) : (State.accumulate b s).senses = s.senses := by
  unfold State.accumulate; rw [State.foldl_offerAddition]
@[simp] theorem State.accumulate_sampler (b s : State) : (State.accumulate b s).sampler = s.sampler := by
  unfold State.accumulate; rw [State.foldl_offerAddition]
@[simp] theorem State.accumulate_ils (b s : State) : (State.accumulate b s).ils = s.ils := by
  unfold State.accumulate; rw [State.foldl_offerAddition]
@[simp] theorem State.accumulate_home (b s : State) : (State.accumulate b s).home = s.home := by
  unfold State.accumulate; rw [State.foldl_offerAddition]
@[simp] theorem State.accumulate_trips (b s : State) : (State.accumulate b s).trips = s.trips := by
  unfold State.accumulate; rw [State.foldl_offerAddition]
@[simp] theorem State.accumulate_check (b s : State) : (State.accumulate b s).check = s.check := by
  unfold State.accumulate; rw [State.foldl_offerAddition]
@[simp] theorem State.accumulate_ctl (b s : State) : (State.accumulate b s).ctl = s.ctl := by
  unfold State.accumulate; rw [State.foldl_offerAddition]
@[simp] theorem State.accumulate_pins (b s : State) : (State.accumulate b s).pins = s.pins := by
  unfold State.accumulate; rw [State.foldl_offerAddition]
@[simp] theorem State.accumulate_freeCount (b s : State) : (State.accumulate b s).freeCount = s.freeCount := by
  unfold State.accumulate; rw [State.foldl_offerAddition]

/-! ### clearAccums -/

@[simp] theorem State.clearAccums_pending (m : Half) (s : State) : (s.clearAccums m).pending = s.pending := rfl
@[simp] theorem State.clearAccums_tb (m : Half) (s : State) : (s.clearAccums m).tb = s.tb := rfl
@[simp] theorem State.clearAccums_queue (m : Half) (s : State) : (s.clearAccums m).queue = s.queue := rfl
@[simp] theorem State.clearAccums_chans (m : Half) (s : State) : (s.clearAccums m).chans = s.chans := rfl
@[simp] theorem State.clearAccums_outs (m : Half) (s : State) : (s.clearAccums m).outs = s.outs := rfl
@[simp] theorem State.clearAccums_senses (m : Half) (s : State) : (s.clearAccums m).senses = s.senses := rfl
@[simp] theorem State.clearAccums_sampler (m : Half) (s : State) : (s.clearAccums m).sampler = s.sampler := rfl
@[simp] theorem State.clearAccums_ils (m : Half) (s : State) : (s.clearAccums m).ils = s.ils := rfl
@[simp] theorem State.clearAccums_home (m : Half) (s : State) : (s.clearAccums m).home = s.home := rfl
@[simp] theorem State.clearAccums_trips (m : Half) (s : State) : (s.clearAccums m).trips = s.trips := rfl
@[simp] theorem State.clearAccums_seq (m : Half) (s : State) : (s.clearAccums m).seq = s.seq := rfl
@[simp] theorem State.clearAccums_check (m : Half) (s : State) : (s.clearAccums m).check = s.check := rfl
@[simp] theorem State.clearAccums_ctl (m : Half) (s : State) : (s.clearAccums m).ctl = s.ctl := rfl
@[simp] theorem State.clearAccums_link (m : Half) (s : State) : (s.clearAccums m).link = s.link := rfl
@[simp] theorem State.clearAccums_pins (m : Half) (s : State) : (s.clearAccums m).pins = s.pins := rfl
@[simp] theorem State.clearAccums_freeCount (m : Half) (s : State) : (s.clearAccums m).freeCount = s.freeCount := rfl

/-! ### setLatches -/

@[simp] theorem State.setLatches_pending (i : IlId) (s : State) : (s.setLatches i).pending = s.pending := rfl
@[simp] theorem State.setLatches_tb (i : IlId) (s : State) : (s.setLatches i).tb = s.tb := rfl
@[simp] theorem State.setLatches_queue (i : IlId) (s : State) : (s.setLatches i).queue = s.queue := rfl
@[simp] theorem State.setLatches_chans (i : IlId) (s : State) : (s.setLatches i).chans = s.chans := rfl
@[simp] theorem State.setLatches_outs (i : IlId) (s : State) : (s.setLatches i).outs = s.outs := rfl
@[simp] theorem State.setLatches_senses (i : IlId) (s : State) : (s.setLatches i).senses = s.senses := rfl
@[simp] theorem State.setLatches_sampler (i : IlId) (s : State) : (s.setLatches i).sampler = s.sampler := rfl
@[simp] theorem State.setLatches_ils (i : IlId) (s : State) : (s.setLatches i).ils = s.ils := rfl
@[simp] theorem State.setLatches_home (i : IlId) (s : State) : (s.setLatches i).home = s.home := rfl
@[simp] theorem State.setLatches_accs (i : IlId) (s : State) : (s.setLatches i).accs = s.accs := rfl
@[simp] theorem State.setLatches_seq (i : IlId) (s : State) : (s.setLatches i).seq = s.seq := rfl
@[simp] theorem State.setLatches_check (i : IlId) (s : State) : (s.setLatches i).check = s.check := rfl
@[simp] theorem State.setLatches_ctl (i : IlId) (s : State) : (s.setLatches i).ctl = s.ctl := rfl
@[simp] theorem State.setLatches_link (i : IlId) (s : State) : (s.setLatches i).link = s.link := rfl
@[simp] theorem State.setLatches_pins (i : IlId) (s : State) : (s.setLatches i).pins = s.pins := rfl
@[simp] theorem State.setLatches_freeCount (i : IlId) (s : State) : (s.setLatches i).freeCount = s.freeCount := rfl

/-! ### tripMembers -/

@[simp] theorem State.tripMembers_pending (i : IlId) (s : State) : (s.tripMembers i).pending = s.pending := by
  unfold State.tripMembers; split <;> simp
@[simp] theorem State.tripMembers_tb (i : IlId) (s : State) : (s.tripMembers i).tb = s.tb := by
  unfold State.tripMembers; split <;> simp
@[simp] theorem State.tripMembers_chans (i : IlId) (s : State) : (s.tripMembers i).chans = s.chans := by
  unfold State.tripMembers; split <;> simp
@[simp] theorem State.tripMembers_outs (i : IlId) (s : State) : (s.tripMembers i).outs = s.outs := by
  unfold State.tripMembers; split <;> simp
@[simp] theorem State.tripMembers_senses (i : IlId) (s : State) : (s.tripMembers i).senses = s.senses := by
  unfold State.tripMembers; split <;> simp
@[simp] theorem State.tripMembers_sampler (i : IlId) (s : State) : (s.tripMembers i).sampler = s.sampler := by
  unfold State.tripMembers; split <;> simp
@[simp] theorem State.tripMembers_ils (i : IlId) (s : State) : (s.tripMembers i).ils = s.ils := by
  unfold State.tripMembers; split <;> simp
@[simp] theorem State.tripMembers_home (i : IlId) (s : State) : (s.tripMembers i).home = s.home := by
  unfold State.tripMembers; split <;> simp
@[simp] theorem State.tripMembers_accs (i : IlId) (s : State) : (s.tripMembers i).accs = s.accs := by
  unfold State.tripMembers; split <;> simp
@[simp] theorem State.tripMembers_seq (i : IlId) (s : State) : (s.tripMembers i).seq = s.seq := by
  unfold State.tripMembers; split <;> simp
@[simp] theorem State.tripMembers_check (i : IlId) (s : State) : (s.tripMembers i).check = s.check := by
  unfold State.tripMembers; split <;> simp
@[simp] theorem State.tripMembers_ctl (i : IlId) (s : State) : (s.tripMembers i).ctl = s.ctl := by
  unfold State.tripMembers; split <;> simp
@[simp] theorem State.tripMembers_pins (i : IlId) (s : State) : (s.tripMembers i).pins = s.pins := by
  unfold State.tripMembers; split <;> simp
@[simp] theorem State.tripMembers_freeCount (i : IlId) (s : State) : (s.tripMembers i).freeCount = s.freeCount := by
  unfold State.tripMembers; split <;> simp

/-! ### clearLatches -/

@[simp] theorem State.clearLatches_pending (sel : ChanId → Bool) (s : State) : (s.clearLatches sel).pending = s.pending := rfl
@[simp] theorem State.clearLatches_tb (sel : ChanId → Bool) (s : State) : (s.clearLatches sel).tb = s.tb := rfl
@[simp] theorem State.clearLatches_queue (sel : ChanId → Bool) (s : State) : (s.clearLatches sel).queue = s.queue := rfl
@[simp] theorem State.clearLatches_senses (sel : ChanId → Bool) (s : State) : (s.clearLatches sel).senses = s.senses := rfl
@[simp] theorem State.clearLatches_sampler (sel : ChanId → Bool) (s : State) : (s.clearLatches sel).sampler = s.sampler := rfl
@[simp] theorem State.clearLatches_ils (sel : ChanId → Bool) (s : State) : (s.clearLatches sel).ils = s.ils := rfl
@[simp] theorem State.clearLatches_home (sel : ChanId → Bool) (s : State) : (s.clearLatches sel).home = s.home := rfl
@[simp] theorem State.clearLatches_accs (sel : ChanId → Bool) (s : State) : (s.clearLatches sel).accs = s.accs := rfl
@[simp] theorem State.clearLatches_seq (sel : ChanId → Bool) (s : State) : (s.clearLatches sel).seq = s.seq := rfl
@[simp] theorem State.clearLatches_check (sel : ChanId → Bool) (s : State) : (s.clearLatches sel).check = s.check := rfl
@[simp] theorem State.clearLatches_ctl (sel : ChanId → Bool) (s : State) : (s.clearLatches sel).ctl = s.ctl := rfl
@[simp] theorem State.clearLatches_link (sel : ChanId → Bool) (s : State) : (s.clearLatches sel).link = s.link := rfl
@[simp] theorem State.clearLatches_pins (sel : ChanId → Bool) (s : State) : (s.clearLatches sel).pins = s.pins := rfl
@[simp] theorem State.clearLatches_freeCount (sel : ChanId → Bool) (s : State) : (s.clearLatches sel).freeCount = s.freeCount := rfl

/-! ### autoTest -/

@[simp] theorem State.autoTest_pending (s : State) : (s.autoTest).pending = s.pending := rfl
@[simp] theorem State.autoTest_tb (s : State) : (s.autoTest).tb = s.tb := rfl
@[simp] theorem State.autoTest_queue (s : State) : (s.autoTest).queue = s.queue := rfl
@[simp] theorem State.autoTest_senses (s : State) : (s.autoTest).senses = s.senses := rfl
@[simp] theorem State.autoTest_sampler (s : State) : (s.autoTest).sampler = s.sampler := rfl
@[simp] theorem State.autoTest_ils (s : State) : (s.autoTest).ils = s.ils := rfl
@[simp] theorem State.autoTest_home (s : State) : (s.autoTest).home = s.home := rfl
@[simp] theorem State.autoTest_accs (s : State) : (s.autoTest).accs = s.accs := rfl
@[simp] theorem State.autoTest_seq (s : State) : (s.autoTest).seq = s.seq := rfl
@[simp] theorem State.autoTest_check (s : State) : (s.autoTest).check = s.check := rfl
@[simp] theorem State.autoTest_ctl (s : State) : (s.autoTest).ctl = s.ctl := rfl
@[simp] theorem State.autoTest_link (s : State) : (s.autoTest).link = s.link := rfl
@[simp] theorem State.autoTest_pins (s : State) : (s.autoTest).pins = s.pins := rfl
@[simp] theorem State.autoTest_freeCount (s : State) : (s.autoTest).freeCount = s.freeCount := rfl

/-! ### rearm -/

@[simp] theorem State.rearm_pending (s : State) : (s.rearm).pending = s.pending := rfl
@[simp] theorem State.rearm_tb (s : State) : (s.rearm).tb = s.tb := rfl
@[simp] theorem State.rearm_queue (s : State) : (s.rearm).queue = s.queue := rfl
@[simp] theorem State.rearm_senses (s : State) : (s.rearm).senses = s.senses := rfl
@[simp] theorem State.rearm_sampler (s : State) : (s.rearm).sampler = s.sampler := rfl
@[simp] theorem State.rearm_ils (s : State) : (s.rearm).ils = s.ils := rfl
@[simp] theorem State.rearm_home (s : State) : (s.rearm).home = s.home := rfl
@[simp] theorem State.rearm_accs (s : State) : (s.rearm).accs = s.accs := rfl
@[simp] theorem State.rearm_seq (s : State) : (s.rearm).seq = s.seq := rfl
@[simp] theorem State.rearm_check (s : State) : (s.rearm).check = s.check := rfl
@[simp] theorem State.rearm_ctl (s : State) : (s.rearm).ctl = s.ctl := rfl
@[simp] theorem State.rearm_link (s : State) : (s.rearm).link = s.link := rfl
@[simp] theorem State.rearm_pins (s : State) : (s.rearm).pins = s.pins := rfl
@[simp] theorem State.rearm_freeCount (s : State) : (s.rearm).freeCount = s.freeCount := rfl

/-! ### leaveCheck -/

@[simp] theorem State.leaveCheck_pending (st : CheckStatus) (r : AbortReason) (s : State) : (s.leaveCheck st r).pending = s.pending := rfl
@[simp] theorem State.leaveCheck_queue (st : CheckStatus) (r : AbortReason) (s : State) : (s.leaveCheck st r).queue = s.queue := rfl
@[simp] theorem State.leaveCheck_senses (st : CheckStatus) (r : AbortReason) (s : State) : (s.leaveCheck st r).senses = s.senses := rfl
@[simp] theorem State.leaveCheck_sampler (st : CheckStatus) (r : AbortReason) (s : State) : (s.leaveCheck st r).sampler = s.sampler := rfl
@[simp] theorem State.leaveCheck_ils (st : CheckStatus) (r : AbortReason) (s : State) : (s.leaveCheck st r).ils = s.ils := rfl
@[simp] theorem State.leaveCheck_home (st : CheckStatus) (r : AbortReason) (s : State) : (s.leaveCheck st r).home = s.home := rfl
@[simp] theorem State.leaveCheck_accs (st : CheckStatus) (r : AbortReason) (s : State) : (s.leaveCheck st r).accs = s.accs := rfl
@[simp] theorem State.leaveCheck_seq (st : CheckStatus) (r : AbortReason) (s : State) : (s.leaveCheck st r).seq = s.seq := rfl
@[simp] theorem State.leaveCheck_pins (st : CheckStatus) (r : AbortReason) (s : State) : (s.leaveCheck st r).pins = s.pins := rfl
@[simp] theorem State.leaveCheck_freeCount (st : CheckStatus) (r : AbortReason) (s : State) : (s.leaveCheck st r).freeCount = s.freeCount := rfl

/-! ### completeCheck -/

@[simp] theorem State.completeCheck_pending (s : State) : (s.completeCheck).pending = s.pending := rfl
@[simp] theorem State.completeCheck_queue (s : State) : (s.completeCheck).queue = s.queue := rfl
@[simp] theorem State.completeCheck_senses (s : State) : (s.completeCheck).senses = s.senses := rfl
@[simp] theorem State.completeCheck_sampler (s : State) : (s.completeCheck).sampler = s.sampler := rfl
@[simp] theorem State.completeCheck_ils (s : State) : (s.completeCheck).ils = s.ils := rfl
@[simp] theorem State.completeCheck_home (s : State) : (s.completeCheck).home = s.home := rfl
@[simp] theorem State.completeCheck_accs (s : State) : (s.completeCheck).accs = s.accs := rfl
@[simp] theorem State.completeCheck_seq (s : State) : (s.completeCheck).seq = s.seq := rfl
@[simp] theorem State.completeCheck_pins (s : State) : (s.completeCheck).pins = s.pins := rfl
@[simp] theorem State.completeCheck_freeCount (s : State) : (s.completeCheck).freeCount = s.freeCount := rfl

/-! ### abortCheck -/

@[simp] theorem State.abortCheck_pending (r : AbortReason) (s : State) : (s.abortCheck r).pending = s.pending := rfl
@[simp] theorem State.abortCheck_queue (r : AbortReason) (s : State) : (s.abortCheck r).queue = s.queue := rfl
@[simp] theorem State.abortCheck_senses (r : AbortReason) (s : State) : (s.abortCheck r).senses = s.senses := rfl
@[simp] theorem State.abortCheck_sampler (r : AbortReason) (s : State) : (s.abortCheck r).sampler = s.sampler := rfl
@[simp] theorem State.abortCheck_ils (r : AbortReason) (s : State) : (s.abortCheck r).ils = s.ils := rfl
@[simp] theorem State.abortCheck_home (r : AbortReason) (s : State) : (s.abortCheck r).home = s.home := rfl
@[simp] theorem State.abortCheck_accs (r : AbortReason) (s : State) : (s.abortCheck r).accs = s.accs := rfl
@[simp] theorem State.abortCheck_seq (r : AbortReason) (s : State) : (s.abortCheck r).seq = s.seq := rfl
@[simp] theorem State.abortCheck_pins (r : AbortReason) (s : State) : (s.abortCheck r).pins = s.pins := rfl
@[simp] theorem State.abortCheck_freeCount (r : AbortReason) (s : State) : (s.abortCheck r).freeCount = s.freeCount := rfl

/-! ### beginStep -/

@[simp] theorem State.beginStep_pending (q : CheckParams) (p : Pass) (k : Nat) (st : CheckStep) (s : State) : (s.beginStep q p k st).pending = s.pending := by
  unfold State.beginStep; split <;> rfl
@[simp] theorem State.beginStep_tb (q : CheckParams) (p : Pass) (k : Nat) (st : CheckStep) (s : State) : (s.beginStep q p k st).tb = s.tb := by
  unfold State.beginStep; split <;> rfl
@[simp] theorem State.beginStep_queue (q : CheckParams) (p : Pass) (k : Nat) (st : CheckStep) (s : State) : (s.beginStep q p k st).queue = s.queue := by
  unfold State.beginStep; split <;> rfl
@[simp] theorem State.beginStep_chans (q : CheckParams) (p : Pass) (k : Nat) (st : CheckStep) (s : State) : (s.beginStep q p k st).chans = s.chans := by
  unfold State.beginStep; split <;> rfl
@[simp] theorem State.beginStep_senses (q : CheckParams) (p : Pass) (k : Nat) (st : CheckStep) (s : State) : (s.beginStep q p k st).senses = s.senses := by
  unfold State.beginStep; split <;> rfl
@[simp] theorem State.beginStep_sampler (q : CheckParams) (p : Pass) (k : Nat) (st : CheckStep) (s : State) : (s.beginStep q p k st).sampler = s.sampler := by
  unfold State.beginStep; split <;> rfl
@[simp] theorem State.beginStep_ils (q : CheckParams) (p : Pass) (k : Nat) (st : CheckStep) (s : State) : (s.beginStep q p k st).ils = s.ils := by
  unfold State.beginStep; split <;> rfl
@[simp] theorem State.beginStep_home (q : CheckParams) (p : Pass) (k : Nat) (st : CheckStep) (s : State) : (s.beginStep q p k st).home = s.home := by
  unfold State.beginStep; split <;> rfl
@[simp] theorem State.beginStep_trips (q : CheckParams) (p : Pass) (k : Nat) (st : CheckStep) (s : State) : (s.beginStep q p k st).trips = s.trips := by
  unfold State.beginStep; split <;> rfl
@[simp] theorem State.beginStep_accs (q : CheckParams) (p : Pass) (k : Nat) (st : CheckStep) (s : State) : (s.beginStep q p k st).accs = s.accs := by
  unfold State.beginStep; split <;> rfl
@[simp] theorem State.beginStep_seq (q : CheckParams) (p : Pass) (k : Nat) (st : CheckStep) (s : State) : (s.beginStep q p k st).seq = s.seq := by
  unfold State.beginStep; split <;> rfl
@[simp] theorem State.beginStep_ctl (q : CheckParams) (p : Pass) (k : Nat) (st : CheckStep) (s : State) : (s.beginStep q p k st).ctl = s.ctl := by
  unfold State.beginStep; split <;> rfl
@[simp] theorem State.beginStep_link (q : CheckParams) (p : Pass) (k : Nat) (st : CheckStep) (s : State) : (s.beginStep q p k st).link = s.link := by
  unfold State.beginStep; split <;> rfl
@[simp] theorem State.beginStep_pins (q : CheckParams) (p : Pass) (k : Nat) (st : CheckStep) (s : State) : (s.beginStep q p k st).pins = s.pins := by
  unfold State.beginStep; split <;> rfl
@[simp] theorem State.beginStep_freeCount (q : CheckParams) (p : Pass) (k : Nat) (st : CheckStep) (s : State) : (s.beginStep q p k st).freeCount = s.freeCount := by
  unfold State.beginStep; split <;> rfl

/-! ### nextVisit -/

@[simp] theorem State.nextVisit_pending (q : CheckParams) (vs : List (Pass × Nat)) (s : State) : (State.nextVisit q vs s).pending = s.pending := by
  induction vs generalizing s with
  | nil => rfl
  | cons v vs ih => unfold State.nextVisit; dsimp only; (repeat' split) <;> simp [ih]
@[simp] theorem State.nextVisit_queue (q : CheckParams) (vs : List (Pass × Nat)) (s : State) : (State.nextVisit q vs s).queue = s.queue := by
  induction vs generalizing s with
  | nil => rfl
  | cons v vs ih => unfold State.nextVisit; dsimp only; (repeat' split) <;> simp [ih]
@[simp] theorem State.nextVisit_senses (q : CheckParams) (vs : List (Pass × Nat)) (s : State) : (State.nextVisit q vs s).senses = s.senses := by
  induction vs generalizing s with
  | nil => rfl
  | cons v vs ih => unfold State.nextVisit; dsimp only; (repeat' split) <;> simp [ih]
@[simp] theorem State.nextVisit_sampler (q : CheckParams) (vs : List (Pass × Nat)) (s : State) : (State.nextVisit q vs s).sampler = s.sampler := by
  induction vs generalizing s with
  | nil => rfl
  | cons v vs ih => unfold State.nextVisit; dsimp only; (repeat' split) <;> simp [ih]
@[simp] theorem State.nextVisit_ils (q : CheckParams) (vs : List (Pass × Nat)) (s : State) : (State.nextVisit q vs s).ils = s.ils := by
  induction vs generalizing s with
  | nil => rfl
  | cons v vs ih => unfold State.nextVisit; dsimp only; (repeat' split) <;> simp [ih]
@[simp] theorem State.nextVisit_home (q : CheckParams) (vs : List (Pass × Nat)) (s : State) : (State.nextVisit q vs s).home = s.home := by
  induction vs generalizing s with
  | nil => rfl
  | cons v vs ih => unfold State.nextVisit; dsimp only; (repeat' split) <;> simp [ih]
@[simp] theorem State.nextVisit_accs (q : CheckParams) (vs : List (Pass × Nat)) (s : State) : (State.nextVisit q vs s).accs = s.accs := by
  induction vs generalizing s with
  | nil => rfl
  | cons v vs ih => unfold State.nextVisit; dsimp only; (repeat' split) <;> simp [ih]
@[simp] theorem State.nextVisit_seq (q : CheckParams) (vs : List (Pass × Nat)) (s : State) : (State.nextVisit q vs s).seq = s.seq := by
  induction vs generalizing s with
  | nil => rfl
  | cons v vs ih => unfold State.nextVisit; dsimp only; (repeat' split) <;> simp [ih]
@[simp] theorem State.nextVisit_pins (q : CheckParams) (vs : List (Pass × Nat)) (s : State) : (State.nextVisit q vs s).pins = s.pins := by
  induction vs generalizing s with
  | nil => rfl
  | cons v vs ih => unfold State.nextVisit; dsimp only; (repeat' split) <;> simp [ih]
@[simp] theorem State.nextVisit_freeCount (q : CheckParams) (vs : List (Pass × Nat)) (s : State) : (State.nextVisit q vs s).freeCount = s.freeCount := by
  induction vs generalizing s with
  | nil => rfl
  | cons v vs ih => unfold State.nextVisit; dsimp only; (repeat' split) <;> simp [ih]

/-! ### endStep -/

@[simp] theorem State.endStep_pending (q : CheckParams) (p : Position) (s : State) : (s.endStep q p).pending = s.pending := by
  unfold State.endStep; dsimp only; repeat' (split; try dsimp only)
  all_goals simp
@[simp] theorem State.endStep_queue (q : CheckParams) (p : Position) (s : State) : (s.endStep q p).queue = s.queue := by
  unfold State.endStep; dsimp only; repeat' (split; try dsimp only)
  all_goals simp
@[simp] theorem State.endStep_senses (q : CheckParams) (p : Position) (s : State) : (s.endStep q p).senses = s.senses := by
  unfold State.endStep; dsimp only; repeat' (split; try dsimp only)
  all_goals simp
@[simp] theorem State.endStep_sampler (q : CheckParams) (p : Position) (s : State) : (s.endStep q p).sampler = s.sampler := by
  unfold State.endStep; dsimp only; repeat' (split; try dsimp only)
  all_goals simp
@[simp] theorem State.endStep_ils (q : CheckParams) (p : Position) (s : State) : (s.endStep q p).ils = s.ils := by
  unfold State.endStep; dsimp only; repeat' (split; try dsimp only)
  all_goals simp
@[simp] theorem State.endStep_home (q : CheckParams) (p : Position) (s : State) : (s.endStep q p).home = s.home := by
  unfold State.endStep; dsimp only; repeat' (split; try dsimp only)
  all_goals simp
@[simp] theorem State.endStep_accs (q : CheckParams) (p : Position) (s : State) : (s.endStep q p).accs = s.accs := by
  unfold State.endStep; dsimp only; repeat' (split; try dsimp only)
  all_goals simp
@[simp] theorem State.endStep_seq (q : CheckParams) (p : Position) (s : State) : (s.endStep q p).seq = s.seq := by
  unfold State.endStep; dsimp only; repeat' (split; try dsimp only)
  all_goals simp
@[simp] theorem State.endStep_pins (q : CheckParams) (p : Position) (s : State) : (s.endStep q p).pins = s.pins := by
  unfold State.endStep; dsimp only; repeat' (split; try dsimp only)
  all_goals simp
@[simp] theorem State.endStep_freeCount (q : CheckParams) (p : Position) (s : State) : (s.endStep q p).freeCount = s.freeCount := by
  unfold State.endStep; dsimp only; repeat' (split; try dsimp only)
  all_goals simp

/-! ### checkBoundary -/

@[simp] theorem State.checkBoundary_pending (s : State) : (s.checkBoundary).pending = s.pending := by
  unfold State.checkBoundary; dsimp only; repeat' (split; try dsimp only)
  all_goals simp
@[simp] theorem State.checkBoundary_queue (s : State) : (s.checkBoundary).queue = s.queue := by
  unfold State.checkBoundary; dsimp only; repeat' (split; try dsimp only)
  all_goals simp
@[simp] theorem State.checkBoundary_senses (s : State) : (s.checkBoundary).senses = s.senses := by
  unfold State.checkBoundary; dsimp only; repeat' (split; try dsimp only)
  all_goals simp
@[simp] theorem State.checkBoundary_sampler (s : State) : (s.checkBoundary).sampler = s.sampler := by
  unfold State.checkBoundary; dsimp only; repeat' (split; try dsimp only)
  all_goals simp
@[simp] theorem State.checkBoundary_ils (s : State) : (s.checkBoundary).ils = s.ils := by
  unfold State.checkBoundary; dsimp only; repeat' (split; try dsimp only)
  all_goals simp
@[simp] theorem State.checkBoundary_home (s : State) : (s.checkBoundary).home = s.home := by
  unfold State.checkBoundary; dsimp only; repeat' (split; try dsimp only)
  all_goals simp
@[simp] theorem State.checkBoundary_accs (s : State) : (s.checkBoundary).accs = s.accs := by
  unfold State.checkBoundary; dsimp only; repeat' (split; try dsimp only)
  all_goals simp
@[simp] theorem State.checkBoundary_seq (s : State) : (s.checkBoundary).seq = s.seq := by
  unfold State.checkBoundary; dsimp only; repeat' (split; try dsimp only)
  all_goals simp
@[simp] theorem State.checkBoundary_pins (s : State) : (s.checkBoundary).pins = s.pins := by
  unfold State.checkBoundary; dsimp only; repeat' (split; try dsimp only)
  all_goals simp
@[simp] theorem State.checkBoundary_freeCount (s : State) : (s.checkBoundary).freeCount = s.freeCount := by
  unfold State.checkBoundary; dsimp only; repeat' (split; try dsimp only)
  all_goals simp

/-! ### capture -/

@[simp] theorem State.capture_pending (c : ChanId) (d : EdgeDir) (s : State) : (s.capture c d).pending = s.pending := rfl
@[simp] theorem State.capture_tb (c : ChanId) (d : EdgeDir) (s : State) : (s.capture c d).tb = s.tb := rfl
@[simp] theorem State.capture_queue (c : ChanId) (d : EdgeDir) (s : State) : (s.capture c d).queue = s.queue := rfl
@[simp] theorem State.capture_chans (c : ChanId) (d : EdgeDir) (s : State) : (s.capture c d).chans = s.chans := rfl
@[simp] theorem State.capture_outs (c : ChanId) (d : EdgeDir) (s : State) : (s.capture c d).outs = s.outs := rfl
@[simp] theorem State.capture_sampler (c : ChanId) (d : EdgeDir) (s : State) : (s.capture c d).sampler = s.sampler := rfl
@[simp] theorem State.capture_ils (c : ChanId) (d : EdgeDir) (s : State) : (s.capture c d).ils = s.ils := rfl
@[simp] theorem State.capture_home (c : ChanId) (d : EdgeDir) (s : State) : (s.capture c d).home = s.home := rfl
@[simp] theorem State.capture_trips (c : ChanId) (d : EdgeDir) (s : State) : (s.capture c d).trips = s.trips := rfl
@[simp] theorem State.capture_accs (c : ChanId) (d : EdgeDir) (s : State) : (s.capture c d).accs = s.accs := rfl
@[simp] theorem State.capture_check (c : ChanId) (d : EdgeDir) (s : State) : (s.capture c d).check = s.check := rfl
@[simp] theorem State.capture_ctl (c : ChanId) (d : EdgeDir) (s : State) : (s.capture c d).ctl = s.ctl := rfl
@[simp] theorem State.capture_pins (c : ChanId) (d : EdgeDir) (s : State) : (s.capture c d).pins = s.pins := rfl
@[simp] theorem State.capture_freeCount (c : ChanId) (d : EdgeDir) (s : State) : (s.capture c d).freeCount = s.freeCount := rfl

/-! ### moveSense -/

@[simp] theorem State.moveSense_pending (c : ChanId) (l : Level) (s : State) : (s.moveSense c l).pending = s.pending := rfl
@[simp] theorem State.moveSense_tb (c : ChanId) (l : Level) (s : State) : (s.moveSense c l).tb = s.tb := rfl
@[simp] theorem State.moveSense_queue (c : ChanId) (l : Level) (s : State) : (s.moveSense c l).queue = s.queue := rfl
@[simp] theorem State.moveSense_chans (c : ChanId) (l : Level) (s : State) : (s.moveSense c l).chans = s.chans := rfl
@[simp] theorem State.moveSense_outs (c : ChanId) (l : Level) (s : State) : (s.moveSense c l).outs = s.outs := rfl
@[simp] theorem State.moveSense_sampler (c : ChanId) (l : Level) (s : State) : (s.moveSense c l).sampler = s.sampler := rfl
@[simp] theorem State.moveSense_ils (c : ChanId) (l : Level) (s : State) : (s.moveSense c l).ils = s.ils := rfl
@[simp] theorem State.moveSense_home (c : ChanId) (l : Level) (s : State) : (s.moveSense c l).home = s.home := rfl
@[simp] theorem State.moveSense_trips (c : ChanId) (l : Level) (s : State) : (s.moveSense c l).trips = s.trips := rfl
@[simp] theorem State.moveSense_accs (c : ChanId) (l : Level) (s : State) : (s.moveSense c l).accs = s.accs := rfl
@[simp] theorem State.moveSense_seq (c : ChanId) (l : Level) (s : State) : (s.moveSense c l).seq = s.seq := rfl
@[simp] theorem State.moveSense_check (c : ChanId) (l : Level) (s : State) : (s.moveSense c l).check = s.check := rfl
@[simp] theorem State.moveSense_ctl (c : ChanId) (l : Level) (s : State) : (s.moveSense c l).ctl = s.ctl := rfl
@[simp] theorem State.moveSense_link (c : ChanId) (l : Level) (s : State) : (s.moveSense c l).link = s.link := rfl
@[simp] theorem State.moveSense_pins (c : ChanId) (l : Level) (s : State) : (s.moveSense c l).pins = s.pins := rfl
@[simp] theorem State.moveSense_freeCount (c : ChanId) (l : Level) (s : State) : (s.moveSense c l).freeCount = s.freeCount := rfl

/-! ### countEdge -/

@[simp] theorem State.countEdge_pending (s : State) : (s.countEdge).pending = s.pending := rfl
@[simp] theorem State.countEdge_tb (s : State) : (s.countEdge).tb = s.tb := rfl
@[simp] theorem State.countEdge_queue (s : State) : (s.countEdge).queue = s.queue := rfl
@[simp] theorem State.countEdge_chans (s : State) : (s.countEdge).chans = s.chans := rfl
@[simp] theorem State.countEdge_outs (s : State) : (s.countEdge).outs = s.outs := rfl
@[simp] theorem State.countEdge_senses (s : State) : (s.countEdge).senses = s.senses := rfl
@[simp] theorem State.countEdge_sampler (s : State) : (s.countEdge).sampler = s.sampler := rfl
@[simp] theorem State.countEdge_ils (s : State) : (s.countEdge).ils = s.ils := rfl
@[simp] theorem State.countEdge_home (s : State) : (s.countEdge).home = s.home := rfl
@[simp] theorem State.countEdge_trips (s : State) : (s.countEdge).trips = s.trips := rfl
@[simp] theorem State.countEdge_accs (s : State) : (s.countEdge).accs = s.accs := rfl
@[simp] theorem State.countEdge_seq (s : State) : (s.countEdge).seq = s.seq := rfl
@[simp] theorem State.countEdge_ctl (s : State) : (s.countEdge).ctl = s.ctl := rfl
@[simp] theorem State.countEdge_link (s : State) : (s.countEdge).link = s.link := rfl
@[simp] theorem State.countEdge_pins (s : State) : (s.countEdge).pins = s.pins := rfl
@[simp] theorem State.countEdge_freeCount (s : State) : (s.countEdge).freeCount = s.freeCount := rfl

/-! ### edgeInRun -/

@[simp] theorem State.edgeInRun_pending (c : ChanId) (d : EdgeDir) (s : State) : (s.edgeInRun c d).pending = s.pending := by
  unfold State.edgeInRun; try dsimp only
  repeat' (split; try dsimp only)
  all_goals simp
@[simp] theorem State.edgeInRun_tb (c : ChanId) (d : EdgeDir) (s : State) : (s.edgeInRun c d).tb = s.tb := by
  unfold State.edgeInRun; try dsimp only
  repeat' (split; try dsimp only)
  all_goals simp
@[simp] theorem State.edgeInRun_queue (c : ChanId) (d : EdgeDir) (s : State) : (s.edgeInRun c d).queue = s.queue := by
  unfold State.edgeInRun; try dsimp only
  repeat' (split; try dsimp only)
  all_goals simp
@[simp] theorem State.edgeInRun_sampler (c : ChanId) (d : EdgeDir) (s : State) : (s.edgeInRun c d).sampler = s.sampler := by
  unfold State.edgeInRun; try dsimp only
  repeat' (split; try dsimp only)
  all_goals simp
@[simp] theorem State.edgeInRun_ils (c : ChanId) (d : EdgeDir) (s : State) : (s.edgeInRun c d).ils = s.ils := by
  unfold State.edgeInRun; try dsimp only
  repeat' (split; try dsimp only)
  all_goals simp
@[simp] theorem State.edgeInRun_home (c : ChanId) (d : EdgeDir) (s : State) : (s.edgeInRun c d).home = s.home := by
  unfold State.edgeInRun; try dsimp only
  repeat' (split; try dsimp only)
  all_goals simp
@[simp] theorem State.edgeInRun_trips (c : ChanId) (d : EdgeDir) (s : State) : (s.edgeInRun c d).trips = s.trips := by
  unfold State.edgeInRun; try dsimp only
  repeat' (split; try dsimp only)
  all_goals simp
@[simp] theorem State.edgeInRun_accs (c : ChanId) (d : EdgeDir) (s : State) : (s.edgeInRun c d).accs = s.accs := by
  unfold State.edgeInRun; try dsimp only
  repeat' (split; try dsimp only)
  all_goals simp
@[simp] theorem State.edgeInRun_check (c : ChanId) (d : EdgeDir) (s : State) : (s.edgeInRun c d).check = s.check := by
  unfold State.edgeInRun; try dsimp only
  repeat' (split; try dsimp only)
  all_goals simp
@[simp] theorem State.edgeInRun_ctl (c : ChanId) (d : EdgeDir) (s : State) : (s.edgeInRun c d).ctl = s.ctl := by
  unfold State.edgeInRun; try dsimp only
  repeat' (split; try dsimp only)
  all_goals simp
@[simp] theorem State.edgeInRun_pins (c : ChanId) (d : EdgeDir) (s : State) : (s.edgeInRun c d).pins = s.pins := by
  unfold State.edgeInRun; try dsimp only
  repeat' (split; try dsimp only)
  all_goals simp
@[simp] theorem State.edgeInRun_freeCount (c : ChanId) (d : EdgeDir) (s : State) : (s.edgeInRun c d).freeCount = s.freeCount := by
  unfold State.edgeInRun; try dsimp only
  repeat' (split; try dsimp only)
  all_goals simp

/-! ### takeEdge -/

@[simp] theorem State.takeEdge_pending (c : ChanId) (l : Level) (s : State) : (s.takeEdge c l).pending = s.pending := by
  unfold State.takeEdge; try dsimp only
  repeat' (split; try dsimp only)
  all_goals simp
@[simp] theorem State.takeEdge_tb (c : ChanId) (l : Level) (s : State) : (s.takeEdge c l).tb = s.tb := by
  unfold State.takeEdge; try dsimp only
  repeat' (split; try dsimp only)
  all_goals simp
@[simp] theorem State.takeEdge_queue (c : ChanId) (l : Level) (s : State) : (s.takeEdge c l).queue = s.queue := by
  unfold State.takeEdge; try dsimp only
  repeat' (split; try dsimp only)
  all_goals simp
@[simp] theorem State.takeEdge_sampler (c : ChanId) (l : Level) (s : State) : (s.takeEdge c l).sampler = s.sampler := by
  unfold State.takeEdge; try dsimp only
  repeat' (split; try dsimp only)
  all_goals simp
@[simp] theorem State.takeEdge_ils (c : ChanId) (l : Level) (s : State) : (s.takeEdge c l).ils = s.ils := by
  unfold State.takeEdge; try dsimp only
  repeat' (split; try dsimp only)
  all_goals simp
@[simp] theorem State.takeEdge_home (c : ChanId) (l : Level) (s : State) : (s.takeEdge c l).home = s.home := by
  unfold State.takeEdge; try dsimp only
  repeat' (split; try dsimp only)
  all_goals simp
@[simp] theorem State.takeEdge_trips (c : ChanId) (l : Level) (s : State) : (s.takeEdge c l).trips = s.trips := by
  unfold State.takeEdge; try dsimp only
  repeat' (split; try dsimp only)
  all_goals simp
@[simp] theorem State.takeEdge_accs (c : ChanId) (l : Level) (s : State) : (s.takeEdge c l).accs = s.accs := by
  unfold State.takeEdge; try dsimp only
  repeat' (split; try dsimp only)
  all_goals simp
@[simp] theorem State.takeEdge_ctl (c : ChanId) (l : Level) (s : State) : (s.takeEdge c l).ctl = s.ctl := by
  unfold State.takeEdge; try dsimp only
  repeat' (split; try dsimp only)
  all_goals simp
@[simp] theorem State.takeEdge_pins (c : ChanId) (l : Level) (s : State) : (s.takeEdge c l).pins = s.pins := by
  unfold State.takeEdge; try dsimp only
  repeat' (split; try dsimp only)
  all_goals simp
@[simp] theorem State.takeEdge_freeCount (c : ChanId) (l : Level) (s : State) : (s.takeEdge c l).freeCount = s.freeCount := by
  unfold State.takeEdge; try dsimp only
  repeat' (split; try dsimp only)
  all_goals simp

/-! ### moveIl -/

@[simp] theorem State.moveIl_pending (i : IlId) (l : Level) (s : State) : (s.moveIl i l).pending = s.pending := rfl
@[simp] theorem State.moveIl_tb (i : IlId) (l : Level) (s : State) : (s.moveIl i l).tb = s.tb := rfl
@[simp] theorem State.moveIl_queue (i : IlId) (l : Level) (s : State) : (s.moveIl i l).queue = s.queue := rfl
@[simp] theorem State.moveIl_chans (i : IlId) (l : Level) (s : State) : (s.moveIl i l).chans = s.chans := rfl
@[simp] theorem State.moveIl_outs (i : IlId) (l : Level) (s : State) : (s.moveIl i l).outs = s.outs := rfl
@[simp] theorem State.moveIl_senses (i : IlId) (l : Level) (s : State) : (s.moveIl i l).senses = s.senses := rfl
@[simp] theorem State.moveIl_sampler (i : IlId) (l : Level) (s : State) : (s.moveIl i l).sampler = s.sampler := rfl
@[simp] theorem State.moveIl_home (i : IlId) (l : Level) (s : State) : (s.moveIl i l).home = s.home := rfl
@[simp] theorem State.moveIl_trips (i : IlId) (l : Level) (s : State) : (s.moveIl i l).trips = s.trips := rfl
@[simp] theorem State.moveIl_accs (i : IlId) (l : Level) (s : State) : (s.moveIl i l).accs = s.accs := rfl
@[simp] theorem State.moveIl_seq (i : IlId) (l : Level) (s : State) : (s.moveIl i l).seq = s.seq := rfl
@[simp] theorem State.moveIl_check (i : IlId) (l : Level) (s : State) : (s.moveIl i l).check = s.check := rfl
@[simp] theorem State.moveIl_ctl (i : IlId) (l : Level) (s : State) : (s.moveIl i l).ctl = s.ctl := rfl
@[simp] theorem State.moveIl_link (i : IlId) (l : Level) (s : State) : (s.moveIl i l).link = s.link := rfl
@[simp] theorem State.moveIl_pins (i : IlId) (l : Level) (s : State) : (s.moveIl i l).pins = s.pins := rfl
@[simp] theorem State.moveIl_freeCount (i : IlId) (l : Level) (s : State) : (s.moveIl i l).freeCount = s.freeCount := rfl

/-! ### activate -/

@[simp] theorem State.activate_pending (i : IlId) (s : State) : (s.activate i).pending = s.pending := by
  unfold State.activate; try dsimp only
  repeat' (split; try dsimp only)
  all_goals simp
@[simp] theorem State.activate_senses (i : IlId) (s : State) : (s.activate i).senses = s.senses := by
  unfold State.activate; try dsimp only
  repeat' (split; try dsimp only)
  all_goals simp
@[simp] theorem State.activate_sampler (i : IlId) (s : State) : (s.activate i).sampler = s.sampler := by
  unfold State.activate; try dsimp only
  repeat' (split; try dsimp only)
  all_goals simp
@[simp] theorem State.activate_ils (i : IlId) (s : State) : (s.activate i).ils = s.ils := by
  unfold State.activate; try dsimp only
  repeat' (split; try dsimp only)
  all_goals simp
@[simp] theorem State.activate_home (i : IlId) (s : State) : (s.activate i).home = s.home := by
  unfold State.activate; try dsimp only
  repeat' (split; try dsimp only)
  all_goals simp
@[simp] theorem State.activate_accs (i : IlId) (s : State) : (s.activate i).accs = s.accs := by
  unfold State.activate; try dsimp only
  repeat' (split; try dsimp only)
  all_goals simp
@[simp] theorem State.activate_seq (i : IlId) (s : State) : (s.activate i).seq = s.seq := by
  unfold State.activate; try dsimp only
  repeat' (split; try dsimp only)
  all_goals simp
@[simp] theorem State.activate_pins (i : IlId) (s : State) : (s.activate i).pins = s.pins := by
  unfold State.activate; try dsimp only
  repeat' (split; try dsimp only)
  all_goals simp
@[simp] theorem State.activate_freeCount (i : IlId) (s : State) : (s.activate i).freeCount = s.freeCount := by
  unfold State.activate; try dsimp only
  repeat' (split; try dsimp only)
  all_goals simp

/-! ### ilRelease -/

@[simp] theorem State.ilRelease_pending (s : State) : (s.ilRelease).pending = s.pending := by
  unfold State.ilRelease; try dsimp only
  repeat' (split; try dsimp only)
  all_goals simp
@[simp] theorem State.ilRelease_tb (s : State) : (s.ilRelease).tb = s.tb := by
  unfold State.ilRelease; try dsimp only
  repeat' (split; try dsimp only)
  all_goals simp
@[simp] theorem State.ilRelease_queue (s : State) : (s.ilRelease).queue = s.queue := by
  unfold State.ilRelease; try dsimp only
  repeat' (split; try dsimp only)
  all_goals simp
@[simp] theorem State.ilRelease_senses (s : State) : (s.ilRelease).senses = s.senses := by
  unfold State.ilRelease; try dsimp only
  repeat' (split; try dsimp only)
  all_goals simp
@[simp] theorem State.ilRelease_sampler (s : State) : (s.ilRelease).sampler = s.sampler := by
  unfold State.ilRelease; try dsimp only
  repeat' (split; try dsimp only)
  all_goals simp
@[simp] theorem State.ilRelease_ils (s : State) : (s.ilRelease).ils = s.ils := by
  unfold State.ilRelease; try dsimp only
  repeat' (split; try dsimp only)
  all_goals simp
@[simp] theorem State.ilRelease_home (s : State) : (s.ilRelease).home = s.home := by
  unfold State.ilRelease; try dsimp only
  repeat' (split; try dsimp only)
  all_goals simp
@[simp] theorem State.ilRelease_accs (s : State) : (s.ilRelease).accs = s.accs := by
  unfold State.ilRelease; try dsimp only
  repeat' (split; try dsimp only)
  all_goals simp
@[simp] theorem State.ilRelease_seq (s : State) : (s.ilRelease).seq = s.seq := by
  unfold State.ilRelease; try dsimp only
  repeat' (split; try dsimp only)
  all_goals simp
@[simp] theorem State.ilRelease_check (s : State) : (s.ilRelease).check = s.check := by
  unfold State.ilRelease; try dsimp only
  repeat' (split; try dsimp only)
  all_goals simp
@[simp] theorem State.ilRelease_ctl (s : State) : (s.ilRelease).ctl = s.ctl := by
  unfold State.ilRelease; try dsimp only
  repeat' (split; try dsimp only)
  all_goals simp
@[simp] theorem State.ilRelease_link (s : State) : (s.ilRelease).link = s.link := by
  unfold State.ilRelease; try dsimp only
  repeat' (split; try dsimp only)
  all_goals simp
@[simp] theorem State.ilRelease_pins (s : State) : (s.ilRelease).pins = s.pins := by
  unfold State.ilRelease; try dsimp only
  repeat' (split; try dsimp only)
  all_goals simp
@[simp] theorem State.ilRelease_freeCount (s : State) : (s.ilRelease).freeCount = s.freeCount := by
  unfold State.ilRelease; try dsimp only
  repeat' (split; try dsimp only)
  all_goals simp

/-! ### takeIl -/

@[simp] theorem State.takeIl_pending (i : IlId) (l : Level) (s : State) : (s.takeIl i l).pending = s.pending := by
  unfold State.takeIl; try dsimp only
  repeat' (split; try dsimp only)
  all_goals simp
@[simp] theorem State.takeIl_senses (i : IlId) (l : Level) (s : State) : (s.takeIl i l).senses = s.senses := by
  unfold State.takeIl; try dsimp only
  repeat' (split; try dsimp only)
  all_goals simp
@[simp] theorem State.takeIl_sampler (i : IlId) (l : Level) (s : State) : (s.takeIl i l).sampler = s.sampler := by
  unfold State.takeIl; try dsimp only
  repeat' (split; try dsimp only)
  all_goals simp
@[simp] theorem State.takeIl_home (i : IlId) (l : Level) (s : State) : (s.takeIl i l).home = s.home := by
  unfold State.takeIl; try dsimp only
  repeat' (split; try dsimp only)
  all_goals simp
@[simp] theorem State.takeIl_accs (i : IlId) (l : Level) (s : State) : (s.takeIl i l).accs = s.accs := by
  unfold State.takeIl; try dsimp only
  repeat' (split; try dsimp only)
  all_goals simp
@[simp] theorem State.takeIl_seq (i : IlId) (l : Level) (s : State) : (s.takeIl i l).seq = s.seq := by
  unfold State.takeIl; try dsimp only
  repeat' (split; try dsimp only)
  all_goals simp
@[simp] theorem State.takeIl_pins (i : IlId) (l : Level) (s : State) : (s.takeIl i l).pins = s.pins := by
  unfold State.takeIl; try dsimp only
  repeat' (split; try dsimp only)
  all_goals simp
@[simp] theorem State.takeIl_freeCount (i : IlId) (l : Level) (s : State) : (s.takeIl i l).freeCount = s.freeCount := by
  unfold State.takeIl; try dsimp only
  repeat' (split; try dsimp only)
  all_goals simp

/-! ### takeHome -/

@[simp] theorem State.takeHome_pending (l : Level) (s : State) : (s.takeHome l).pending = s.pending := by
  unfold State.takeHome; try dsimp only
  repeat' (split; try dsimp only)
  all_goals simp
@[simp] theorem State.takeHome_tb (l : Level) (s : State) : (s.takeHome l).tb = s.tb := by
  unfold State.takeHome; try dsimp only
  repeat' (split; try dsimp only)
  all_goals simp
@[simp] theorem State.takeHome_chans (l : Level) (s : State) : (s.takeHome l).chans = s.chans := by
  unfold State.takeHome; try dsimp only
  repeat' (split; try dsimp only)
  all_goals simp
@[simp] theorem State.takeHome_senses (l : Level) (s : State) : (s.takeHome l).senses = s.senses := by
  unfold State.takeHome; try dsimp only
  repeat' (split; try dsimp only)
  all_goals simp
@[simp] theorem State.takeHome_sampler (l : Level) (s : State) : (s.takeHome l).sampler = s.sampler := by
  unfold State.takeHome; try dsimp only
  repeat' (split; try dsimp only)
  all_goals simp
@[simp] theorem State.takeHome_ils (l : Level) (s : State) : (s.takeHome l).ils = s.ils := by
  unfold State.takeHome; try dsimp only
  repeat' (split; try dsimp only)
  all_goals simp
@[simp] theorem State.takeHome_trips (l : Level) (s : State) : (s.takeHome l).trips = s.trips := by
  unfold State.takeHome; try dsimp only
  repeat' (split; try dsimp only)
  all_goals simp
@[simp] theorem State.takeHome_accs (l : Level) (s : State) : (s.takeHome l).accs = s.accs := by
  unfold State.takeHome; try dsimp only
  repeat' (split; try dsimp only)
  all_goals simp
@[simp] theorem State.takeHome_check (l : Level) (s : State) : (s.takeHome l).check = s.check := by
  unfold State.takeHome; try dsimp only
  repeat' (split; try dsimp only)
  all_goals simp
@[simp] theorem State.takeHome_ctl (l : Level) (s : State) : (s.takeHome l).ctl = s.ctl := by
  unfold State.takeHome; try dsimp only
  repeat' (split; try dsimp only)
  all_goals simp
@[simp] theorem State.takeHome_pins (l : Level) (s : State) : (s.takeHome l).pins = s.pins := by
  unfold State.takeHome; try dsimp only
  repeat' (split; try dsimp only)
  all_goals simp
@[simp] theorem State.takeHome_freeCount (l : Level) (s : State) : (s.takeHome l).freeCount = s.freeCount := by
  unfold State.takeHome; try dsimp only
  repeat' (split; try dsimp only)
  all_goals simp

/-! ### takePin -/

@[simp] theorem State.takePin_pending (e : PinEvent) (s : State) : (s.takePin e).pending = s.pending := by
  unfold State.takePin; try dsimp only
  repeat' (split; try dsimp only)
  all_goals simp
@[simp] theorem State.takePin_sampler (e : PinEvent) (s : State) : (s.takePin e).sampler = s.sampler := by
  unfold State.takePin; try dsimp only
  repeat' (split; try dsimp only)
  all_goals simp
@[simp] theorem State.takePin_accs (e : PinEvent) (s : State) : (s.takePin e).accs = s.accs := by
  unfold State.takePin; try dsimp only
  repeat' (split; try dsimp only)
  all_goals simp
@[simp] theorem State.takePin_pins (e : PinEvent) (s : State) : (s.takePin e).pins = s.pins := by
  unfold State.takePin; try dsimp only
  repeat' (split; try dsimp only)
  all_goals simp
@[simp] theorem State.takePin_freeCount (e : PinEvent) (s : State) : (s.takePin e).freeCount = s.freeCount := by
  unfold State.takePin; try dsimp only
  repeat' (split; try dsimp only)
  all_goals simp

/-! ### takePins -/

@[simp] theorem State.takePins_pending (n : Nat) (es : List PinEvent) (s : State) : (State.takePins n es s).pending = s.pending := by
  induction n generalizing es s with
  | zero => rfl
  | succ n ih =>
    unfold State.takePins State.pick; dsimp only
    repeat' (split; try dsimp only)
    all_goals simp_all
@[simp] theorem State.takePins_sampler (n : Nat) (es : List PinEvent) (s : State) : (State.takePins n es s).sampler = s.sampler := by
  induction n generalizing es s with
  | zero => rfl
  | succ n ih =>
    unfold State.takePins State.pick; dsimp only
    repeat' (split; try dsimp only)
    all_goals simp_all
@[simp] theorem State.takePins_accs (n : Nat) (es : List PinEvent) (s : State) : (State.takePins n es s).accs = s.accs := by
  induction n generalizing es s with
  | zero => rfl
  | succ n ih =>
    unfold State.takePins State.pick; dsimp only
    repeat' (split; try dsimp only)
    all_goals simp_all
@[simp] theorem State.takePins_pins (n : Nat) (es : List PinEvent) (s : State) : (State.takePins n es s).pins = s.pins := by
  induction n generalizing es s with
  | zero => rfl
  | succ n ih =>
    unfold State.takePins State.pick; dsimp only
    repeat' (split; try dsimp only)
    all_goals simp_all

/-! ### timebaseWork -/

@[simp] theorem State.timebaseWork_pending (f q : Bool) (s : State) : (s.timebaseWork f q).pending = s.pending := by simp [State.timebaseWork]
@[simp] theorem State.timebaseWork_queue (f q : Bool) (s : State) : (s.timebaseWork f q).queue = s.queue := by simp [State.timebaseWork]
@[simp] theorem State.timebaseWork_chans (f q : Bool) (s : State) : (s.timebaseWork f q).chans = s.chans := by simp [State.timebaseWork]
@[simp] theorem State.timebaseWork_outs (f q : Bool) (s : State) : (s.timebaseWork f q).outs = s.outs := by simp [State.timebaseWork]
@[simp] theorem State.timebaseWork_senses (f q : Bool) (s : State) : (s.timebaseWork f q).senses = s.senses := by simp [State.timebaseWork]
@[simp] theorem State.timebaseWork_sampler (f q : Bool) (s : State) : (s.timebaseWork f q).sampler = s.sampler := by simp [State.timebaseWork]
@[simp] theorem State.timebaseWork_ils (f q : Bool) (s : State) : (s.timebaseWork f q).ils = s.ils := by simp [State.timebaseWork]
@[simp] theorem State.timebaseWork_home (f q : Bool) (s : State) : (s.timebaseWork f q).home = s.home := by simp [State.timebaseWork]
@[simp] theorem State.timebaseWork_trips (f q : Bool) (s : State) : (s.timebaseWork f q).trips = s.trips := by simp [State.timebaseWork]
@[simp] theorem State.timebaseWork_accs (f q : Bool) (s : State) : (s.timebaseWork f q).accs = s.accs := by simp [State.timebaseWork]
@[simp] theorem State.timebaseWork_seq (f q : Bool) (s : State) : (s.timebaseWork f q).seq = s.seq := by simp [State.timebaseWork]
@[simp] theorem State.timebaseWork_check (f q : Bool) (s : State) : (s.timebaseWork f q).check = s.check := by simp [State.timebaseWork]
@[simp] theorem State.timebaseWork_ctl (f q : Bool) (s : State) : (s.timebaseWork f q).ctl = s.ctl := by simp [State.timebaseWork]
@[simp] theorem State.timebaseWork_pins (f q : Bool) (s : State) : (s.timebaseWork f q).pins = s.pins := by simp [State.timebaseWork]
@[simp] theorem State.timebaseWork_freeCount (f q : Bool) (s : State) : (s.timebaseWork f q).freeCount = s.freeCount := by simp [State.timebaseWork]

/-! ### channelWork -/

@[simp] theorem State.channelWork_pending (b : State) (r : Bool) (s : State) : (State.channelWork b r s).pending = s.pending := by
  unfold State.channelWork; cases r <;> rfl
@[simp] theorem State.channelWork_tb (b : State) (r : Bool) (s : State) : (State.channelWork b r s).tb = s.tb := by
  unfold State.channelWork; cases r <;> rfl
@[simp] theorem State.channelWork_queue (b : State) (r : Bool) (s : State) : (State.channelWork b r s).queue = s.queue := by
  unfold State.channelWork; cases r <;> rfl
@[simp] theorem State.channelWork_outs (b : State) (r : Bool) (s : State) : (State.channelWork b r s).outs = s.outs := by
  unfold State.channelWork; cases r <;> rfl
@[simp] theorem State.channelWork_senses (b : State) (r : Bool) (s : State) : (State.channelWork b r s).senses = s.senses := by
  unfold State.channelWork; cases r <;> rfl
@[simp] theorem State.channelWork_sampler (b : State) (r : Bool) (s : State) : (State.channelWork b r s).sampler = s.sampler := by
  unfold State.channelWork; cases r <;> rfl
@[simp] theorem State.channelWork_ils (b : State) (r : Bool) (s : State) : (State.channelWork b r s).ils = s.ils := by
  unfold State.channelWork; cases r <;> rfl
@[simp] theorem State.channelWork_home (b : State) (r : Bool) (s : State) : (State.channelWork b r s).home = s.home := by
  unfold State.channelWork; cases r <;> rfl
@[simp] theorem State.channelWork_trips (b : State) (r : Bool) (s : State) : (State.channelWork b r s).trips = s.trips := by
  unfold State.channelWork; cases r <;> rfl
@[simp] theorem State.channelWork_check (b : State) (r : Bool) (s : State) : (State.channelWork b r s).check = s.check := by
  unfold State.channelWork; cases r <;> rfl
@[simp] theorem State.channelWork_ctl (b : State) (r : Bool) (s : State) : (State.channelWork b r s).ctl = s.ctl := by
  unfold State.channelWork; cases r <;> rfl
@[simp] theorem State.channelWork_link (b : State) (r : Bool) (s : State) : (State.channelWork b r s).link = s.link := by
  unfold State.channelWork; cases r <;> rfl
@[simp] theorem State.channelWork_pins (b : State) (r : Bool) (s : State) : (State.channelWork b r s).pins = s.pins := by
  unfold State.channelWork; cases r <;> rfl
@[simp] theorem State.channelWork_freeCount (b : State) (r : Bool) (s : State) : (State.channelWork b r s).freeCount = s.freeCount := by
  unfold State.channelWork; cases r <;> rfl

/-! ### sequenceWork -/

@[simp] theorem State.sequenceWork_pending (r : Bool) (s : State) : (s.sequenceWork r).pending = s.pending := by
  unfold State.sequenceWork; cases r <;> simp
@[simp] theorem State.sequenceWork_tb (r : Bool) (s : State) : (s.sequenceWork r).tb = s.tb := by
  unfold State.sequenceWork; cases r <;> simp
@[simp] theorem State.sequenceWork_chans (r : Bool) (s : State) : (s.sequenceWork r).chans = s.chans := by
  unfold State.sequenceWork; cases r <;> simp
@[simp] theorem State.sequenceWork_outs (r : Bool) (s : State) : (s.sequenceWork r).outs = s.outs := by
  unfold State.sequenceWork; cases r <;> simp
@[simp] theorem State.sequenceWork_senses (r : Bool) (s : State) : (s.sequenceWork r).senses = s.senses := by
  unfold State.sequenceWork; cases r <;> simp
@[simp] theorem State.sequenceWork_sampler (r : Bool) (s : State) : (s.sequenceWork r).sampler = s.sampler := by
  unfold State.sequenceWork; cases r <;> simp
@[simp] theorem State.sequenceWork_ils (r : Bool) (s : State) : (s.sequenceWork r).ils = s.ils := by
  unfold State.sequenceWork; cases r <;> simp
@[simp] theorem State.sequenceWork_home (r : Bool) (s : State) : (s.sequenceWork r).home = s.home := by
  unfold State.sequenceWork; cases r <;> simp
@[simp] theorem State.sequenceWork_trips (r : Bool) (s : State) : (s.sequenceWork r).trips = s.trips := by
  unfold State.sequenceWork; cases r <;> simp
@[simp] theorem State.sequenceWork_accs (r : Bool) (s : State) : (s.sequenceWork r).accs = s.accs := by
  unfold State.sequenceWork; cases r <;> simp
@[simp] theorem State.sequenceWork_check (r : Bool) (s : State) : (s.sequenceWork r).check = s.check := by
  unfold State.sequenceWork; cases r <;> simp
@[simp] theorem State.sequenceWork_ctl (r : Bool) (s : State) : (s.sequenceWork r).ctl = s.ctl := by
  unfold State.sequenceWork; cases r <;> simp
@[simp] theorem State.sequenceWork_pins (r : Bool) (s : State) : (s.sequenceWork r).pins = s.pins := by
  unfold State.sequenceWork; cases r <;> simp
@[simp] theorem State.sequenceWork_freeCount (r : Bool) (s : State) : (s.sequenceWork r).freeCount = s.freeCount := by
  unfold State.sequenceWork; cases r <;> simp

/-! ### resumeOuts -/

@[simp] theorem State.resumeOuts_pending (s : State) : (s.resumeOuts).pending = s.pending := rfl
@[simp] theorem State.resumeOuts_tb (s : State) : (s.resumeOuts).tb = s.tb := rfl
@[simp] theorem State.resumeOuts_queue (s : State) : (s.resumeOuts).queue = s.queue := rfl
@[simp] theorem State.resumeOuts_chans (s : State) : (s.resumeOuts).chans = s.chans := rfl
@[simp] theorem State.resumeOuts_senses (s : State) : (s.resumeOuts).senses = s.senses := rfl
@[simp] theorem State.resumeOuts_sampler (s : State) : (s.resumeOuts).sampler = s.sampler := rfl
@[simp] theorem State.resumeOuts_ils (s : State) : (s.resumeOuts).ils = s.ils := rfl
@[simp] theorem State.resumeOuts_home (s : State) : (s.resumeOuts).home = s.home := rfl
@[simp] theorem State.resumeOuts_trips (s : State) : (s.resumeOuts).trips = s.trips := rfl
@[simp] theorem State.resumeOuts_accs (s : State) : (s.resumeOuts).accs = s.accs := rfl
@[simp] theorem State.resumeOuts_seq (s : State) : (s.resumeOuts).seq = s.seq := rfl
@[simp] theorem State.resumeOuts_check (s : State) : (s.resumeOuts).check = s.check := rfl
@[simp] theorem State.resumeOuts_ctl (s : State) : (s.resumeOuts).ctl = s.ctl := rfl
@[simp] theorem State.resumeOuts_link (s : State) : (s.resumeOuts).link = s.link := rfl
@[simp] theorem State.resumeOuts_pins (s : State) : (s.resumeOuts).pins = s.pins := rfl
@[simp] theorem State.resumeOuts_freeCount (s : State) : (s.resumeOuts).freeCount = s.freeCount := rfl

/-! ### outputWork -/

@[simp] theorem State.outputWork_pending (s : State) : (s.outputWork).pending = s.pending := rfl
@[simp] theorem State.outputWork_tb (s : State) : (s.outputWork).tb = s.tb := rfl
@[simp] theorem State.outputWork_queue (s : State) : (s.outputWork).queue = s.queue := rfl
@[simp] theorem State.outputWork_chans (s : State) : (s.outputWork).chans = s.chans := rfl
@[simp] theorem State.outputWork_senses (s : State) : (s.outputWork).senses = s.senses := rfl
@[simp] theorem State.outputWork_sampler (s : State) : (s.outputWork).sampler = s.sampler := rfl
@[simp] theorem State.outputWork_ils (s : State) : (s.outputWork).ils = s.ils := rfl
@[simp] theorem State.outputWork_home (s : State) : (s.outputWork).home = s.home := rfl
@[simp] theorem State.outputWork_trips (s : State) : (s.outputWork).trips = s.trips := rfl
@[simp] theorem State.outputWork_accs (s : State) : (s.outputWork).accs = s.accs := rfl
@[simp] theorem State.outputWork_seq (s : State) : (s.outputWork).seq = s.seq := rfl
@[simp] theorem State.outputWork_check (s : State) : (s.outputWork).check = s.check := rfl
@[simp] theorem State.outputWork_ctl (s : State) : (s.outputWork).ctl = s.ctl := rfl
@[simp] theorem State.outputWork_link (s : State) : (s.outputWork).link = s.link := rfl
@[simp] theorem State.outputWork_pins (s : State) : (s.outputWork).pins = s.pins := rfl
@[simp] theorem State.outputWork_freeCount (s : State) : (s.outputWork).freeCount = s.freeCount := rfl

/-- Ordering notices takes free choices and changes nothing else. -/
theorem orderNew_state (n : Nat) (l : List Notice) (s : State) :
    (orderNew n l s).2 = { s with freeCount := (orderNew n l s).2.freeCount } := by
  induction n generalizing l s with
  | zero => rfl
  | succ n ih =>
    unfold orderNew
    dsimp only
    split
    · unfold State.pick; split <;> rfl
    · rw [ih]
      unfold State.pick; split <;> rfl

/-! ### settleOrder -/

@[simp] theorem State.settleOrder_pending (n : Nat) (s : State) : (s.settleOrder n).pending = s.pending := by
  unfold State.settleOrder; dsimp only; rw [orderNew_state]
@[simp] theorem State.settleOrder_tb (n : Nat) (s : State) : (s.settleOrder n).tb = s.tb := by
  unfold State.settleOrder; dsimp only; rw [orderNew_state]
@[simp] theorem State.settleOrder_queue (n : Nat) (s : State) : (s.settleOrder n).queue = s.queue := by
  unfold State.settleOrder; dsimp only; rw [orderNew_state]
@[simp] theorem State.settleOrder_chans (n : Nat) (s : State) : (s.settleOrder n).chans = s.chans := by
  unfold State.settleOrder; dsimp only; rw [orderNew_state]
@[simp] theorem State.settleOrder_outs (n : Nat) (s : State) : (s.settleOrder n).outs = s.outs := by
  unfold State.settleOrder; dsimp only; rw [orderNew_state]
@[simp] theorem State.settleOrder_senses (n : Nat) (s : State) : (s.settleOrder n).senses = s.senses := by
  unfold State.settleOrder; dsimp only; rw [orderNew_state]
@[simp] theorem State.settleOrder_sampler (n : Nat) (s : State) : (s.settleOrder n).sampler = s.sampler := by
  unfold State.settleOrder; dsimp only; rw [orderNew_state]
@[simp] theorem State.settleOrder_ils (n : Nat) (s : State) : (s.settleOrder n).ils = s.ils := by
  unfold State.settleOrder; dsimp only; rw [orderNew_state]
@[simp] theorem State.settleOrder_home (n : Nat) (s : State) : (s.settleOrder n).home = s.home := by
  unfold State.settleOrder; dsimp only; rw [orderNew_state]
@[simp] theorem State.settleOrder_trips (n : Nat) (s : State) : (s.settleOrder n).trips = s.trips := by
  unfold State.settleOrder; dsimp only; rw [orderNew_state]
@[simp] theorem State.settleOrder_accs (n : Nat) (s : State) : (s.settleOrder n).accs = s.accs := by
  unfold State.settleOrder; dsimp only; rw [orderNew_state]
@[simp] theorem State.settleOrder_seq (n : Nat) (s : State) : (s.settleOrder n).seq = s.seq := by
  unfold State.settleOrder; dsimp only; rw [orderNew_state]
@[simp] theorem State.settleOrder_check (n : Nat) (s : State) : (s.settleOrder n).check = s.check := by
  unfold State.settleOrder; dsimp only; rw [orderNew_state]
@[simp] theorem State.settleOrder_ctl (n : Nat) (s : State) : (s.settleOrder n).ctl = s.ctl := by
  unfold State.settleOrder; dsimp only; rw [orderNew_state]
@[simp] theorem State.settleOrder_pins (n : Nat) (s : State) : (s.settleOrder n).pins = s.pins := by
  unfold State.settleOrder; dsimp only; rw [orderNew_state]

/-! ### runBoundary -/

@[simp] theorem State.runBoundary_pending (f q : Bool) (s : State) : (s.runBoundary f q).pending = s.pending := by
  unfold State.runBoundary; dsimp only; split <;> simp
@[simp] theorem State.runBoundary_senses (f q : Bool) (s : State) : (s.runBoundary f q).senses = s.senses := by
  unfold State.runBoundary; dsimp only; split <;> simp
@[simp] theorem State.runBoundary_sampler (f q : Bool) (s : State) : (s.runBoundary f q).sampler = s.sampler := by
  unfold State.runBoundary; dsimp only; split <;> simp
@[simp] theorem State.runBoundary_ils (f q : Bool) (s : State) : (s.runBoundary f q).ils = s.ils := by
  unfold State.runBoundary; dsimp only; split <;> simp
@[simp] theorem State.runBoundary_home (f q : Bool) (s : State) : (s.runBoundary f q).home = s.home := by
  unfold State.runBoundary; dsimp only; split <;> simp
@[simp] theorem State.runBoundary_check (f q : Bool) (s : State) : (s.runBoundary f q).check = s.check := by
  unfold State.runBoundary; dsimp only; split <;> simp
@[simp] theorem State.runBoundary_ctl (f q : Bool) (s : State) : (s.runBoundary f q).ctl = s.ctl := by
  unfold State.runBoundary; dsimp only; split <;> simp
@[simp] theorem State.runBoundary_pins (f q : Bool) (s : State) : (s.runBoundary f q).pins = s.pins := by
  unfold State.runBoundary; dsimp only; split <;> simp

/-! ### checkFrame -/

@[simp] theorem State.checkFrame_pending (s : State) : (s.checkFrame).pending = s.pending := by simp [State.checkFrame]
@[simp] theorem State.checkFrame_queue (s : State) : (s.checkFrame).queue = s.queue := by simp [State.checkFrame]
@[simp] theorem State.checkFrame_senses (s : State) : (s.checkFrame).senses = s.senses := by simp [State.checkFrame]
@[simp] theorem State.checkFrame_sampler (s : State) : (s.checkFrame).sampler = s.sampler := by simp [State.checkFrame]
@[simp] theorem State.checkFrame_ils (s : State) : (s.checkFrame).ils = s.ils := by simp [State.checkFrame]
@[simp] theorem State.checkFrame_home (s : State) : (s.checkFrame).home = s.home := by simp [State.checkFrame]
@[simp] theorem State.checkFrame_accs (s : State) : (s.checkFrame).accs = s.accs := by simp [State.checkFrame]
@[simp] theorem State.checkFrame_seq (s : State) : (s.checkFrame).seq = s.seq := by simp [State.checkFrame]
@[simp] theorem State.checkFrame_pins (s : State) : (s.checkFrame).pins = s.pins := by simp [State.checkFrame]
@[simp] theorem State.checkFrame_freeCount (s : State) : (s.checkFrame).freeCount = s.freeCount := by simp [State.checkFrame]

/-! ### takeFrameEnd -/

@[simp] theorem State.takeFrameEnd_pending (s : State) : (s.takeFrameEnd).pending = s.pending := by
  unfold State.takeFrameEnd; dsimp only; split <;> simp
@[simp] theorem State.takeFrameEnd_senses (s : State) : (s.takeFrameEnd).senses = s.senses := by
  unfold State.takeFrameEnd; dsimp only; split <;> simp
@[simp] theorem State.takeFrameEnd_sampler (s : State) : (s.takeFrameEnd).sampler = s.sampler := by
  unfold State.takeFrameEnd; dsimp only; split <;> simp
@[simp] theorem State.takeFrameEnd_ils (s : State) : (s.takeFrameEnd).ils = s.ils := by
  unfold State.takeFrameEnd; dsimp only; split <;> simp
@[simp] theorem State.takeFrameEnd_home (s : State) : (s.takeFrameEnd).home = s.home := by
  unfold State.takeFrameEnd; dsimp only; split <;> simp
@[simp] theorem State.takeFrameEnd_pins (s : State) : (s.takeFrameEnd).pins = s.pins := by
  unfold State.takeFrameEnd; dsimp only; split <;> simp

/-! ### setTimebase -/

@[simp] theorem State.setTimebase_pending (g : TbSettings) (s : State) : (s.setTimebase g).pending = s.pending := rfl
@[simp] theorem State.setTimebase_queue (g : TbSettings) (s : State) : (s.setTimebase g).queue = s.queue := rfl
@[simp] theorem State.setTimebase_chans (g : TbSettings) (s : State) : (s.setTimebase g).chans = s.chans := rfl
@[simp] theorem State.setTimebase_outs (g : TbSettings) (s : State) : (s.setTimebase g).outs = s.outs := rfl
@[simp] theorem State.setTimebase_senses (g : TbSettings) (s : State) : (s.setTimebase g).senses = s.senses := rfl
@[simp] theorem State.setTimebase_sampler (g : TbSettings) (s : State) : (s.setTimebase g).sampler = s.sampler := rfl
@[simp] theorem State.setTimebase_ils (g : TbSettings) (s : State) : (s.setTimebase g).ils = s.ils := rfl
@[simp] theorem State.setTimebase_home (g : TbSettings) (s : State) : (s.setTimebase g).home = s.home := rfl
@[simp] theorem State.setTimebase_trips (g : TbSettings) (s : State) : (s.setTimebase g).trips = s.trips := rfl
@[simp] theorem State.setTimebase_accs (g : TbSettings) (s : State) : (s.setTimebase g).accs = s.accs := rfl
@[simp] theorem State.setTimebase_seq (g : TbSettings) (s : State) : (s.setTimebase g).seq = s.seq := rfl
@[simp] theorem State.setTimebase_check (g : TbSettings) (s : State) : (s.setTimebase g).check = s.check := rfl
@[simp] theorem State.setTimebase_link (g : TbSettings) (s : State) : (s.setTimebase g).link = s.link := rfl
@[simp] theorem State.setTimebase_pins (g : TbSettings) (s : State) : (s.setTimebase g).pins = s.pins := rfl
@[simp] theorem State.setTimebase_freeCount (g : TbSettings) (s : State) : (s.setTimebase g).freeCount = s.freeCount := rfl

/-! ### stageTimebase -/

@[simp] theorem State.stageTimebase_pending (g : TbSettings) (s : State) : (s.stageTimebase g).pending = s.pending := rfl
@[simp] theorem State.stageTimebase_queue (g : TbSettings) (s : State) : (s.stageTimebase g).queue = s.queue := rfl
@[simp] theorem State.stageTimebase_chans (g : TbSettings) (s : State) : (s.stageTimebase g).chans = s.chans := rfl
@[simp] theorem State.stageTimebase_outs (g : TbSettings) (s : State) : (s.stageTimebase g).outs = s.outs := rfl
@[simp] theorem State.stageTimebase_senses (g : TbSettings) (s : State) : (s.stageTimebase g).senses = s.senses := rfl
@[simp] theorem State.stageTimebase_sampler (g : TbSettings) (s : State) : (s.stageTimebase g).sampler = s.sampler := rfl
@[simp] theorem State.stageTimebase_ils (g : TbSettings) (s : State) : (s.stageTimebase g).ils = s.ils := rfl
@[simp] theorem State.stageTimebase_home (g : TbSettings) (s : State) : (s.stageTimebase g).home = s.home := rfl
@[simp] theorem State.stageTimebase_trips (g : TbSettings) (s : State) : (s.stageTimebase g).trips = s.trips := rfl
@[simp] theorem State.stageTimebase_accs (g : TbSettings) (s : State) : (s.stageTimebase g).accs = s.accs := rfl
@[simp] theorem State.stageTimebase_seq (g : TbSettings) (s : State) : (s.stageTimebase g).seq = s.seq := rfl
@[simp] theorem State.stageTimebase_check (g : TbSettings) (s : State) : (s.stageTimebase g).check = s.check := rfl
@[simp] theorem State.stageTimebase_ctl (g : TbSettings) (s : State) : (s.stageTimebase g).ctl = s.ctl := rfl
@[simp] theorem State.stageTimebase_link (g : TbSettings) (s : State) : (s.stageTimebase g).link = s.link := rfl
@[simp] theorem State.stageTimebase_pins (g : TbSettings) (s : State) : (s.stageTimebase g).pins = s.pins := rfl
@[simp] theorem State.stageTimebase_freeCount (g : TbSettings) (s : State) : (s.stageTimebase g).freeCount = s.freeCount := rfl

/-! ### clearCaptures -/

@[simp] theorem State.clearCaptures_pending (s : State) : (s.clearCaptures).pending = s.pending := rfl
@[simp] theorem State.clearCaptures_tb (s : State) : (s.clearCaptures).tb = s.tb := rfl
@[simp] theorem State.clearCaptures_queue (s : State) : (s.clearCaptures).queue = s.queue := rfl
@[simp] theorem State.clearCaptures_chans (s : State) : (s.clearCaptures).chans = s.chans := rfl
@[simp] theorem State.clearCaptures_outs (s : State) : (s.clearCaptures).outs = s.outs := rfl
@[simp] theorem State.clearCaptures_sampler (s : State) : (s.clearCaptures).sampler = s.sampler := rfl
@[simp] theorem State.clearCaptures_ils (s : State) : (s.clearCaptures).ils = s.ils := rfl
@[simp] theorem State.clearCaptures_home (s : State) : (s.clearCaptures).home = s.home := rfl
@[simp] theorem State.clearCaptures_trips (s : State) : (s.clearCaptures).trips = s.trips := rfl
@[simp] theorem State.clearCaptures_accs (s : State) : (s.clearCaptures).accs = s.accs := rfl
@[simp] theorem State.clearCaptures_seq (s : State) : (s.clearCaptures).seq = s.seq := rfl
@[simp] theorem State.clearCaptures_check (s : State) : (s.clearCaptures).check = s.check := rfl
@[simp] theorem State.clearCaptures_ctl (s : State) : (s.clearCaptures).ctl = s.ctl := rfl
@[simp] theorem State.clearCaptures_link (s : State) : (s.clearCaptures).link = s.link := rfl
@[simp] theorem State.clearCaptures_pins (s : State) : (s.clearCaptures).pins = s.pins := rfl
@[simp] theorem State.clearCaptures_freeCount (s : State) : (s.clearCaptures).freeCount = s.freeCount := rfl

/-! ### Building and sending -/

/-- Building a reply touches the Link Unit alone. -/
theorem State.build_eq (s : State) : s.build = { s with link := s.build.link } := by
  unfold State.build; repeat' split
  all_goals rfl

/-- So it does where it is free, but for the numbering of free choices. -/
theorem State.mayBuild_eq (s : State) :
    s.mayBuild = { s with link := s.mayBuild.link, freeCount := s.mayBuild.freeCount } := by
  unfold State.mayBuild State.pick
  simp only [Nat.reduceLeDiff, if_false]
  repeat' split
  · rw [State.build_eq]
  · rfl
  · rfl

/-- Beginning a reply touches the Link Unit alone. -/
theorem State.beginReply_eq (s : State) : s.beginReply = { s with link := s.beginReply.link } := by
  unfold State.beginReply
  dsimp only
  rw [State.build_eq]
  split <;> rfl

theorem State.noticeFirst_eq (s : State) :
    s.noticeFirst = { s with link := s.noticeFirst.link, freeCount := s.noticeFirst.freeCount } := by
  unfold State.noticeFirst
  dsimp only
  rw [State.mayBuild_eq]

/-- The transmitter touches the Link Unit and the numbering of free choices alone. -/
theorem State.kick_eq (s : State) : s.kick = { s with link := s.kick.link, freeCount := s.kick.freeCount } := by
  unfold State.kick State.pick
  simp only [Nat.reduceLeDiff, if_false]
  repeat' split
  · exact State.mayBuild_eq s
  · rfl
  · rw [State.beginReply_eq]
  · rfl
  · rw [State.beginReply_eq]
  · rw [State.noticeFirst_eq]

theorem State.choose_eq (d : FrameClass) (s : State) :
    s.choose d = { s with link := (s.choose d).link, freeCount := (s.choose d).freeCount } := by
  unfold State.choose
  dsimp only
  repeat' split
  · rfl
  · rw [State.beginReply_eq]
  · rfl
  · rw [State.noticeFirst_eq]
  · rw [State.beginReply_eq]

@[simp] theorem State.kick_pending (s : State) : (s.kick).pending = s.pending := by rw [State.kick_eq]
@[simp] theorem State.kick_tb (s : State) : (s.kick).tb = s.tb := by rw [State.kick_eq]
@[simp] theorem State.kick_queue (s : State) : (s.kick).queue = s.queue := by rw [State.kick_eq]
@[simp] theorem State.kick_chans (s : State) : (s.kick).chans = s.chans := by rw [State.kick_eq]
@[simp] theorem State.kick_outs (s : State) : (s.kick).outs = s.outs := by rw [State.kick_eq]
@[simp] theorem State.kick_senses (s : State) : (s.kick).senses = s.senses := by rw [State.kick_eq]
@[simp] theorem State.kick_sampler (s : State) : (s.kick).sampler = s.sampler := by rw [State.kick_eq]
@[simp] theorem State.kick_ils (s : State) : (s.kick).ils = s.ils := by rw [State.kick_eq]
@[simp] theorem State.kick_home (s : State) : (s.kick).home = s.home := by rw [State.kick_eq]
@[simp] theorem State.kick_trips (s : State) : (s.kick).trips = s.trips := by rw [State.kick_eq]
@[simp] theorem State.kick_accs (s : State) : (s.kick).accs = s.accs := by rw [State.kick_eq]
@[simp] theorem State.kick_seq (s : State) : (s.kick).seq = s.seq := by rw [State.kick_eq]
@[simp] theorem State.kick_check (s : State) : (s.kick).check = s.check := by rw [State.kick_eq]
@[simp] theorem State.kick_ctl (s : State) : (s.kick).ctl = s.ctl := by rw [State.kick_eq]
@[simp] theorem State.kick_pins (s : State) : (s.kick).pins = s.pins := by rw [State.kick_eq]

/-! ### clearCounters -/

@[simp] theorem State.clearCounters_pending (s : State) : (s.clearCounters).pending = s.pending := rfl
@[simp] theorem State.clearCounters_tb (s : State) : (s.clearCounters).tb = s.tb := rfl
@[simp] theorem State.clearCounters_queue (s : State) : (s.clearCounters).queue = s.queue := rfl
@[simp] theorem State.clearCounters_chans (s : State) : (s.clearCounters).chans = s.chans := rfl
@[simp] theorem State.clearCounters_outs (s : State) : (s.clearCounters).outs = s.outs := rfl
@[simp] theorem State.clearCounters_senses (s : State) : (s.clearCounters).senses = s.senses := rfl
@[simp] theorem State.clearCounters_sampler (s : State) : (s.clearCounters).sampler = s.sampler := rfl
@[simp] theorem State.clearCounters_ils (s : State) : (s.clearCounters).ils = s.ils := rfl
@[simp] theorem State.clearCounters_home (s : State) : (s.clearCounters).home = s.home := rfl
@[simp] theorem State.clearCounters_trips (s : State) : (s.clearCounters).trips = s.trips := rfl
@[simp] theorem State.clearCounters_accs (s : State) : (s.clearCounters).accs = s.accs := rfl
@[simp] theorem State.clearCounters_check (s : State) : (s.clearCounters).check = s.check := rfl
@[simp] theorem State.clearCounters_ctl (s : State) : (s.clearCounters).ctl = s.ctl := rfl
@[simp] theorem State.clearCounters_pins (s : State) : (s.clearCounters).pins = s.pins := rfl
@[simp] theorem State.clearCounters_freeCount (s : State) : (s.clearCounters).freeCount = s.freeCount := rfl

end Sys2Proof.Machine
end

