-- ==== Sys2Proof/Laws/Ops.lean ====
section
/-! SUPPORT. What each shared operation does, once for every caller: free choices, derived sets, offering, removal,
insertion, countdown, skipped visits, condition sources, and the outputs of a record that follows its pattern. -/

namespace Sys2Proof.Machine

/-! ### Free choices -/

/-- A free choice touches the numbering of free choices alone. -/
theorem State.pick_snd (n : Nat) (s : State) :
    (s.pick n).2 = { s with freeCount := (s.pick n).2.freeCount } := by
  unfold State.pick; split <;> rfl

/-- A free choice among some things is one of them. -/
theorem State.pick_lt (n : Nat) (s : State) (h : 0 < n) : (s.pick n).1 < n := by
  unfold State.pick
  split
  · simpa using h
  · exact Nat.mod_lt _ h

/-- No choice is made among fewer than two. -/
theorem State.pick_of_le (n : Nat) (s : State) (h : n ≤ 1) : s.pick n = (0, s) := by
  simp [State.pick, h]

/-! ### Masks -/

/-- The mask made from a test is the mask of the channels that pass it. -/
theorem maskOf_chanMask (p : ChanId → Bool) : MaskOf (chanMask p) (fun c => p c = true) := by
  intro c; rw [chanMask_getLsbD]

/-- A mask is fixed by its channels. -/
theorem MaskOf.eq {m n : Half} {p : ChanId → Prop} (hm : MaskOf m p) (hn : MaskOf n p) : m = n := by
  apply BitVec.eq_of_getLsbD_eq
  intro i hi
  have h := (hm ⟨i, hi⟩).trans (hn ⟨i, hi⟩).symm
  exact Bool.eq_iff_iff.2 h

/-- A mask of the channels with `p` is the mask made from a test that says `p`. -/
theorem MaskOf.eq_chanMask {m : Half} {p : ChanId → Prop} (hm : MaskOf m p) (q : ChanId → Bool)
    (h : ∀ c, q c = true ↔ p c) : m = chanMask q :=
  hm.eq fun c => by rw [chanMask_getLsbD]; exact h c

/-- The mask of one channel. -/
@[simp] theorem oneChan_getLsbD (c d : ChanId) : (oneChan c).getLsbD d.val = decide (d = c) := by
  unfold oneChan; rw [chanMask_getLsbD]

/-! ### The derived facts in the statements' terms -/

theorem Interlock.active_iff (x : Interlock) : x.active = true ↔ isActive x := by
  obtain ⟨p, f, r, l, n⟩ := x
  cases p <;> cases l <;> simp [Interlock.active, isActive]

theorem State.used_iff (s : State) (c : ChanId) : s.used c = true ↔ (s.chans.get c).mode ≠ .unused := by
  simp [State.used, Channel.used]

theorem State.member_iff (s : State) (i : IlId) (c : ChanId) : s.member i c = true ↔ isMember s i c := by
  simp [State.member, State.used_iff]

theorem mem_allChans (c : ChanId) : c ∈ allChans := List.mem_finRange c

theorem mem_allIls (i : IlId) : i ∈ allIls := List.mem_finRange i

theorem State.guarded_iff (s : State) (c : ChanId) :
    s.guarded c = true ↔ ∃ i : IlId, (s.chans.get c).member.getLsbD i.val = true ∧ isActive (s.ils.get i) := by
  unfold State.guarded
  rw [List.any_eq_true]
  constructor
  · rintro ⟨i, _, h⟩
    rw [Bool.and_eq_true, Interlock.active_iff] at h
    exact ⟨i, h⟩
  · rintro ⟨i, h⟩
    refine ⟨i, mem_allIls i, ?_⟩
    rw [Bool.and_eq_true, Interlock.active_iff]
    exact h

theorem State.clearable_iff (s : State) (c : ChanId) : s.clearable c = true ↔ eligible s c := by
  unfold State.clearable eligible
  rw [Bool.and_eq_true, Bool.not_eq_true', ← Bool.not_eq_true, State.guarded_iff]
  simp only [State.latched, not_exists, not_and]

theorem State.rearmable_iff (s : State) (c : ChanId) : s.rearmable c = true ↔ autoEligible s c := by
  unfold State.rearmable autoEligible
  rw [Bool.and_eq_true, Bool.and_eq_true, State.used_iff, State.clearable_iff, State.causesAuto,
    List.all_eq_true]
  constructor
  · rintro ⟨⟨hu, hc⟩, ha⟩
    refine ⟨hu, hc, fun i hi => ?_⟩
    have := ha i (mem_allIls i)
    rw [hi] at this
    simpa using this
  · rintro ⟨hu, hc, ha⟩
    refine ⟨⟨hu, hc⟩, fun i _ => ?_⟩
    cases h : (s.trips.get c).cause.getLsbD i.val with
    | false => rfl
    | true => simpa using ha i h

/-- The used members of an interlock as a mask. -/
theorem State.maskOf_memberMask (s : State) (i : IlId) : MaskOf (s.memberMask i) (isMember s i) := by
  intro c; rw [State.memberMask, chanMask_getLsbD]; exact State.member_iff s i c

/-! ### Offering -/

/-- The three things an offer can do to the pending notices. -/
theorem Link.offer_cases (l : Link) (o : Occurrence) :
    l.offer o = { l with notices := l.notices ++ [{ occ := o, count := 1 }] }
    ∨ l.offer o = { l with
        notices := l.notices.map fun n => if n.occ.kind = o.kind then n.absorb o else n }
    ∨ l.offer o = l := by
  unfold Link.offer
  split
  · exact Or.inl rfl
  · split
    · split
      · exact Or.inr (Or.inl rfl)
      · exact Or.inl rfl
    · exact Or.inr (Or.inr rfl)

/-- An offer touches the pending notices alone. -/
theorem Link.offer_eq (l : Link) (o : Occurrence) : l.offer o = { l with notices := (l.offer o).notices } := by
  rcases Link.offer_cases l o with h | h | h <;> rw [h]

/-- Merging keeps a notice's kind. -/
theorem Occurrence.merge_kind (a b : Occurrence) (h : a.kind = b.kind) : (a.merge b).kind = a.kind := by
  cases a <;> cases b <;> simp_all [Occurrence.merge, Occurrence.kind]

/-- An offer of a kind other than READY keeps the queue at one notice of each kind (R188). -/
theorem Link.offer_nodup (l : Link) (o : Occurrence) (ho : o.kind ≠ 0)
    (h : (l.notices.map fun n => n.occ.kind).Nodup) :
    ((l.offer o).notices.map fun n => n.occ.kind).Nodup := by
  unfold Link.offer
  rw [if_neg ho]
  split
  · split
    · have e : (l.notices.map fun n => if n.occ.kind = o.kind then n.absorb o else n).map
          (fun n => n.occ.kind) = l.notices.map fun n => n.occ.kind := by
        rw [List.map_map]
        apply List.map_congr_left
        intro n _
        simp only [Function.comp]
        split
        · next hk => exact Occurrence.merge_kind _ _ hk
        · rfl
      simpa only [e] using h
    · next hn =>
      rw [List.map_append, List.nodup_append]
      refine ⟨h, by simp, ?_⟩
      intro a ha b hb he
      simp only [List.map_cons, List.map_nil, List.mem_singleton] at hb
      subst hb
      obtain ⟨n, hm, hk⟩ := List.mem_map.1 ha
      exact hn (List.any_eq_true.2 ⟨n, hm, by simpa using hk.trans he⟩)
  · exact h

/-- An offer keeps every count within 1 to 255 (R188). -/
theorem Link.offer_counts (l : Link) (o : Occurrence) (h : ∀ n ∈ l.notices, 1 ≤ n.count ∧ n.count ≤ 255) :
    ∀ n ∈ (l.offer o).notices, 1 ≤ n.count ∧ n.count ≤ 255 := by
  rcases Link.offer_cases l o with e | e | e <;> rw [e]
  · intro n hn
    rcases List.mem_append.1 hn with hn | hn
    · exact h n hn
    · rw [List.mem_singleton] at hn; subst hn; exact ⟨by simp, by simp⟩
  · intro n hn
    obtain ⟨m, hm, rfl⟩ := List.mem_map.1 hn
    split
    · have := h m hm
      exact ⟨by simp only [Notice.absorb]; omega, by simp only [Notice.absorb]; omega⟩
    · exact h m hm
  · exact h

/-! ### The Posting Queue -/

/-- One removal: the queue and the FLOW occurrence in the statements' terms (R19, R31). -/
theorem State.removeEntries_eq (sel : Entry → Bool) (s : State) :
    s.removeEntries sel = { s with
      queue := afterRemoval s.queue (s.queue.entries.filter fun e => !sel e)
      link := flowOfRemoval s.queue (s.queue.entries.filter fun e => !sel e) s.link } := by
  unfold State.removeEntries State.holdAfterRemoval afterRemoval flowOfRemoval
  dsimp only
  by_cases h : s.queue.hold = true
  · by_cases hl : (s.queue.entries.filter fun e => !sel e).length ≤ s.queue.resumeAt
    · have : ¬ s.queue.resumeAt < (s.queue.entries.filter fun e => !sel e).length := by omega
      simp [h, hl, this, State.changeHold, State.offer]
    · have : s.queue.resumeAt < (s.queue.entries.filter fun e => !sel e).length := by omega
      simp [h, hl, this]
  · have hf : s.queue.hold = false := by simpa using h
    simp [hf]

/-- The countdown of a release boundary in the statements' terms (R26, R27, R31). -/
theorem State.countdown_eq (s : State) :
    s.countdown = { s with
      queue := afterRemoval s.queue ((s.queue.entries.filter fun e => decide (e.remaining ≠ 0)).map fun e =>
        { e with remaining := e.remaining - 1 })
      link := flowOfRemoval s.queue ((s.queue.entries.filter fun e => decide (e.remaining ≠ 0)).map fun e =>
        { e with remaining := e.remaining - 1 }) s.link } := by
  unfold State.countdown State.holdAfterRemoval afterRemoval flowOfRemoval
  generalize (s.queue.entries.filter fun e => decide (e.remaining ≠ 0)).map (fun e =>
    { e with remaining := e.remaining - 1 }) = es
  dsimp only
  by_cases h : s.queue.hold = true
  · by_cases hl : es.length ≤ s.queue.resumeAt
    · have : ¬ s.queue.resumeAt < es.length := by omega
      simp [h, hl, this, State.changeHold, State.offer]
    · have : s.queue.resumeAt < es.length := by omega
      simp [h, hl, this]
  · have hf : s.queue.hold = false := by simpa using h
    simp [hf]

/-- The entries after an insertion (R20, R25). -/
theorem State.insert_entries (o : Origin) (p : Posting) (s : State) :
    (s.insert o p).queue.entries = afterPosting o s.queue.entries p := by
  unfold State.insert afterPosting PostingQueue.holdsKey
  split
  · rfl
  · unfold State.holdAfterAppend
    split <;> rfl

/-- An insertion adds at most one entry. -/
theorem afterPosting_length (o : Origin) (es : List Entry) (p : Posting) :
    (afterPosting o es p).length = es.length ∨ (afterPosting o es p).length = es.length + 1 := by
  unfold afterPosting
  split
  · exact Or.inl (List.length_map ..)
  · exact Or.inr (by simp)

/-! ### Skipped visits of a check -/

/-- The visits of tripped channels at the front of a list are skipped one by one (R158, R161, R162). -/
theorem State.nextVisit_skip (q : CheckParams) (sk rest : List (Pass × Nat)) (s : State)
    (h : ∀ w ∈ sk, s.latched (visitChannel q.order w.2) = true) :
    State.nextVisit q (sk ++ rest) s = State.nextVisit q rest { s with check := sk.foldl (skipOne q) s.check } := by
  induction sk generalizing s with
  | nil => rfl
  | cons w ws ih =>
    have hw := h w (List.mem_cons_self ..)
    have e : State.nextVisit q (w :: ws ++ rest) s = State.nextVisit q (ws ++ rest)
        { s with check := s.check.fail (s.check.skipRecord w.1 (visitChannel q.order w.2)) } := by
      rw [List.cons_append]
      show (if s.latched (visitChannel q.order w.2) then _ else _) = _
      rw [if_pos hw]
    rw [e]
    exact ih _ (fun v hv => h v (List.mem_cons_of_mem _ hv))

/-! ### The line sequence -/

/-- A condition source is true when the statements' table says so (R135). -/
theorem State.sourceTrue_iff (s : State) (k i : Nat) : s.sourceTrue k i = true ↔ sourceHolds s k i := by
  unfold State.sourceTrue sourceHolds
  split
  case h_1 => rfl
  case h_2 =>
    split
    · next h =>
      rw [Interlock.active_iff]
      exact ⟨fun g => ⟨⟨i, h⟩, rfl, g⟩, fun ⟨j, hj, g⟩ => by subst hj; exact g⟩
    · next h => exact ⟨fun g => (Bool.false_ne_true g).elim, fun ⟨j, hj, _⟩ => absurd (hj ▸ j.isLt) h⟩
  case h_3 =>
    split
    · next h =>
      have hb : ∀ l : Level, l.bit = true ↔ l = .high := by intro l; cases l <;> simp [Level.bit]
      rw [hb]
      exact ⟨fun g => ⟨⟨i, h⟩, rfl, g⟩, fun ⟨j, hj, g⟩ => by subst hj; exact g⟩
    · next h => exact ⟨fun g => (Bool.false_ne_true g).elim, fun ⟨j, hj, _⟩ => absurd (hj ▸ j.isLt) h⟩
  case h_4 =>
    unfold SeqUnit.dwellReached
    cases h : s.seq.current with
    | none => simp
    | some l =>
      simp [BitVec.toNat_eq]
  case h_5 => exact List.isEmpty_iff
  case h_6 => rfl
  case h_7 => rfl
  case h_8 => rfl
  case h_9 => rfl
  case h_10 => simp
  case h_11 => first
    | (split <;> simp_all)
    | simp

/-! ### Output records -/

/-- Outputs that become ACTIVE under the guards stay apart (R79). -/
theorem Out.rise_apart (q : Out) (dead : Nat) (d : Bool) (ht : ¬(q.pinA = .active ∧ q.pinB = .active)) :
    ¬(((q.riseA dead d).riseB dead d).pinA = .active ∧ ((q.riseA dead d).riseB dead d).pinB = .active) := by
  have ha : ¬((q.riseA dead d).pinA = .active ∧ (q.riseA dead d).pinB = .active) := by
    unfold Out.riseA
    split
    · next hm =>
      simp only [Out.mayRiseA, guardAllows, Bool.and_eq_true, decide_eq_true_eq] at hm
      exact fun hh => hm.1.2.1 hh.2
    · exact ht
  generalize q.riseA dead d = r at ha ⊢
  unfold Out.riseB
  split
  · next hm =>
    simp only [Out.mayRiseB, guardAllows, Bool.and_eq_true, decide_eq_true_eq] at hm
    exact fun hh => hm.1.2.1 hh.1
  · exact ha

/-- An output record that follows its pattern never makes both outputs ACTIVE (R79). -/
theorem Out.follow_apart (o : Out) (mode : ChanMode) (dead : Nat) (p : Pattern)
    (h : ¬(o.pinA = .active ∧ o.pinB = .active)) :
    ¬((o.follow mode dead p).pinA = .active ∧ (o.follow mode dead p).pinB = .active) := by
  refine Out.rise_apart _ dead p.delayed ?_
  cases p with
  | released => simp [Out.take]
  | wants a b d =>
    simp only [Out.take]
    intro hh
    apply h
    obtain ⟨ha, hb⟩ := hh
    constructor
    · cases hp : o.pinA <;> simp_all [PinDrive.drop]
    · cases hp : o.pinB <;> simp_all [PinDrive.drop]

/-- Settling pins keeps the outputs of every channel apart (R79). -/
theorem State.settleOn_apart (sel : ChanId → Bool) (s : State) (h : OutputsApart s) :
    OutputsApart (s.settleOn sel) := by
  intro c
  simp only [State.settleOn, Bank.get_mapId]
  split
  · exact Out.follow_apart _ _ _ _ (by unfold Out.refresh; split <;> exact h c)
  · exact h c

end Sys2Proof.Machine
end

