-- ==== Sys2Proof/Laws/Step.lean ====
section
/-! SUPPORT. Every command answers a next state; what a step does in its two cases. -/

namespace Sys2Proof.Machine

/-- Every command answers a next state: no command faults and none is refused. -/
theorem exec_next (c : Instr) (s : State) : ∃ t, exec c s = .next t := by
  cases c <;> first
    | exact ⟨_, rfl⟩
    | (simp only [exec, execResetPinRelease, execCheckStepEnd, execCompareMatch, execDeadTimeExpiry,
        execWantedTimeExpiry, execFramingError, execFrameComplete, execFrameSent, execTick]
       repeat' split
       all_goals exact ⟨_, rfl⟩)

/-- A step with a command waiting. -/
theorem step_of_cons (c : Instr) (cs : List Instr) (s : State) (h : s.pending = c :: cs) :
    step s = exec c { s with pending := cs } := by
  simp [step, h]

/-- A step with no command waiting is one drive clock (log 2). -/
theorem step_of_nil (s : State) (h : s.pending = []) : step s = .next s.idle := by
  simp [step, h]

end Sys2Proof.Machine
end

