-- ==== Sys2Proof/Laws/Clock.lean ====
section
/-! SUPPORT. A drive clock, and taking what is due, in the statements' terms. -/

namespace Sys2Proof.Machine

/-! ### One drive clock -/

/-- One tick of the frame counter (R2, R3). -/
theorem Timebase.tick_ticked (t : Timebase) : Ticked { t with divider := 0 } ({ t with divider := 0 }.tick) := by
  obtain ⟨⟨pre, per, rep, al⟩, st, dv, n, dir, r, b, run, due⟩ := t
  cases al <;> cases dir <;> simp only [Timebase.tick, Ticked] <;> split <;> simp_all

/-- Ticked does not read the divider it starts from. -/
theorem Ticked.of_divider {t u : Timebase} (h : Ticked { t with divider := 0 } u) : Ticked t u := h

/-- One drive clock does what R1, R79, R80 and R91 say. -/
theorem State.driveClock_clocked (s : State) : Clocked s s.driveClock := by
  refine ⟨?_, fun h => ?_, fun h hd => ?_, fun h hd => ?_⟩
  · simp only [State.driveClock, Out.clock, countGap, Config.maxGap, Config.samplePeriod, Bool.and_eq_true,
      decide_eq_true_eq]
  · simp [State.driveClock, Timebase.clock, h]
  · simp [State.driveClock, Timebase.clock, h, hd]
  · have hn : ¬s.tb.divider < s.tb.active.prescale := by omega
    have e : s.driveClock.tb = { s.tb with divider := 0 }.tick := by
      simp only [State.driveClock, Timebase.clock, h, if_neg hn]
    rw [e]
    exact (Timebase.tick_ticked s.tb).of_divider

/-! ### What is due -/

/-- One event of a sample leaves the Timebase's due frame end as it was. -/
theorem State.takePin_frameEndDue (e : PinEvent) (s : State) :
    (s.takePin e).tb.frameEndDue = s.tb.frameEndDue := by
  cases e with
  | edge c l => simp [State.takePin]
  | home l => simp [State.takePin]
  | interlock i l =>
    simp only [State.takePin, State.takeIl]
    split
    · unfold State.activate
      split
      · rfl
      · simp [State.abortCheck, State.leaveCheck, State.offer, Timebase.halt, Timebase.restart, State.moveIl]
      · simp
      · simp
    · simp

/-- A sample leaves the Timebase's due frame end as it was. -/
theorem State.sampleEvent_frameEndDue (v : Levels) (s : State) :
    (s.sampleEvent v).tb.frameEndDue = s.tb.frameEndDue := by
  have h : ∀ (n : Nat) (es : List PinEvent) (t : State),
      (State.takePins n es t).tb.frameEndDue = t.tb.frameEndDue := by
    intro n
    induction n with
    | zero => intro es t; rfl
    | succ n ih =>
      intro es t
      unfold State.takePins State.pick
      dsimp only
      repeat' (split; try dsimp only)
      all_goals simp [ih, State.takePin_frameEndDue]
  unfold State.sampleEvent State.sample
  rw [State.kick_tb, h]
  rfl

/-- A frame end leaves the sample clock and the input pins. -/
theorem State.frameEvent_sampler (s : State) : s.frameEvent.sampler = s.sampler := by
  unfold State.frameEvent State.takeFrameEnd
  rw [State.kick_sampler]
  dsimp only
  split <;> simp

theorem State.frameEvent_pins (s : State) : s.frameEvent.pins = s.pins := by
  unfold State.frameEvent State.takeFrameEnd
  rw [State.kick_pins]
  dsimp only
  split <;> simp

/-- Taking the frame end that is due: the command FRAME_END (R4). -/
theorem State.takeFrameDue_of (s : State) (h : s.tb.frameEndDue = true) :
    exec .frameEnd s = .next s.takeFrameDue := by
  simp [exec, execFrameEnd, State.takeFrameDue, h]

/-- Taking the sample that is due: the command SAMPLE with the pins as they stand (R91). -/
theorem State.takeSampleDue_of (s : State) (h : s.sampler.phase = 16) :
    exec (.sample s.pins.s s.pins.il s.pins.home s.pins.c) s = .next s.takeSampleDue := by
  simp [exec, execSample, State.takeSampleDue, State.sampleDue, Config.samplePeriod, h, Pins.levels]

/-- A frame end and a sample that are due together are taken in either order (log 6). -/
theorem State.takeBoth_of_both (s : State) (h1 : s.tb.frameEndDue = true) (h2 : s.sampleDue = true) :
    s.takeBoth = (State.takeFrameDue { s with freeCount := s.freeCount + 1 }).takeSampleDue
    ∨ s.takeBoth = (State.takeSampleDue { s with freeCount := s.freeCount + 1 }).takeFrameDue := by
  have hp : s.pick 2 = (Config.freePick s.freeCount % 2, { s with freeCount := s.freeCount + 1 }) := rfl
  unfold State.takeBoth
  rw [h1, h2, hp]
  simp only [Bool.and_self, if_true]
  split
  · exact Or.inl rfl
  · exact Or.inr rfl

/-- Taking what is due does what log 4 says. -/
theorem State.takeDue_dueTaken (s : State) : DueTaken s s.takeDue := by
  have hp : ∀ t : State, t.takeFrameDue.sampler = t.sampler ∧ t.takeFrameDue.pins = t.pins := by
    intro t
    unfold State.takeFrameDue
    split
    · exact ⟨State.frameEvent_sampler t, State.frameEvent_pins t⟩
    · exact ⟨rfl, rfl⟩
  have hf : ∀ t : State, t.takeSampleDue.tb.frameEndDue = t.tb.frameEndDue := by
    intro t
    unfold State.takeSampleDue
    split
    · exact State.sampleEvent_frameEndDue _ _
    · rfl
  have hrate : s.takeBoth.pins.rate1 = s.pins.rate1 ∧ s.takeBoth.pins.rate0 = s.pins.rate0 := by
    have hq : ∀ t : State, t.takeSampleDue.pins.rate1 = t.pins.rate1 ∧ t.takeSampleDue.pins.rate0 = t.pins.rate0 := by
      intro t
      unfold State.takeSampleDue
      split
      · simp [State.sampleEvent, State.sample, State.readSample]
      · exact ⟨rfl, rfl⟩
    by_cases h : s.tb.frameEndDue = true ∧ s.sampleDue = true
    · rcases State.takeBoth_of_both s h.1 h.2 with e | e <;> rw [e] <;> simp [hq, hp]
    · have e : s.takeBoth = s.takeFrameDue.takeSampleDue := by
        unfold State.takeBoth
        rw [← Bool.and_eq_true] at h
        rw [if_neg h]
      rw [e]
      simp [hq, hp]
  refine ⟨s.takeBoth, s.takeBoth.endStartingEvent s.pins.rate1 s.pins.rate0, ?_, ?_, ?_, ?_, rfl, ?_⟩
  · intro h1 h2
    simp [State.takeBoth, h1, State.takeFrameDue, State.takeSampleDue, State.sampleDue, Config.samplePeriod, h2]
  · intro h1 h2
    have : s.takeBoth = s.takeFrameDue := by
      simp [State.takeBoth, State.sampleDue, Config.samplePeriod, h2, State.takeSampleDue, (hp s).1]
    rw [this]
    exact State.takeFrameDue_of s h1
  · intro h1 h2
    have : s.takeBoth = s.takeSampleDue := by
      simp [State.takeBoth, h1, State.takeFrameDue]
    rw [this]
    exact State.takeSampleDue_of s h2
  · intro h1 h2
    have e1 : ∀ t : State, t = { s with freeCount := s.freeCount + 1 } →
        exec .frameEnd t = .next t.takeFrameDue
        ∧ exec (.sample s.pins.s s.pins.il s.pins.home s.pins.c) t = .next t.takeSampleDue
        ∧ exec (.sample s.pins.s s.pins.il s.pins.home s.pins.c) t.takeFrameDue = .next t.takeFrameDue.takeSampleDue
        ∧ exec .frameEnd t.takeSampleDue = .next t.takeSampleDue.takeFrameDue := by
      intro t ht
      subst ht
      refine ⟨State.takeFrameDue_of _ h1, State.takeSampleDue_of _ h2, ?_, ?_⟩
      · have h := State.takeSampleDue_of (State.takeFrameDue { s with freeCount := s.freeCount + 1 })
          (by rw [(hp _).1]; exact h2)
        rwa [(hp _).2] at h
      · exact State.takeFrameDue_of _ (by rw [hf]; exact h1)
    obtain ⟨a1, a2, a3, a4⟩ := e1 _ rfl
    have hb := State.takeBoth_of_both s h1 (by simp [State.sampleDue, Config.samplePeriod, h2])
    rcases hb with hb | hb
    · exact ⟨_, Or.inl ⟨a1, hb ▸ a3⟩⟩
    · exact ⟨_, Or.inr ⟨a2, hb ▸ a4⟩⟩
  · unfold State.takeDue
    dsimp only
    rw [hrate.1, hrate.2]

/-- Drive clocks taken one by one are the drive clocks of the statements. -/
theorem State.clocks_clocks (n : Nat) (s : State) : Clocks n s (State.clocks n s) := by
  induction n generalizing s with
  | zero => rfl
  | succ n ih => exact ⟨_, _, State.driveClock_clocked s, State.takeDue_dueTaken _, ih _⟩

end Sys2Proof.Machine
end

