-- ==== Sys2Proof/Laws/Link.lean ====
section
/-! SUPPORT. What the request commands and the transmitter do, once for every command: a ready part answers a
request at once, and its answer is the decoder's judgement. -/

namespace Sys2Proof.Machine

/-- What readiness says, field by field. -/
theorem State.ready_iff (s : State) :
    s.ready = true ↔ s.ctl.mode ≠ .starting ∧ s.link.service = none ∧ s.link.waiting = []
      ∧ s.link.restarting = false := by
  simp [State.ready, and_assoc]

/-- A ready part answers a request that arrives, and the transmitter goes on. -/
theorem State.deliver_ready (s : State) (kind tag : Byte) (body : List Byte) (h : s.ready = true) :
    s.deliver kind tag body = (State.answer { kind := kind, tag := tag, body := body } s).kick := by
  obtain ⟨hm, hs, hw, hr⟩ := (State.ready_iff s).1 h
  have e : ∀ f, (({ s with link := s.link.accept f } : State)).serve = State.answer f s := by
    intro f
    obtain ⟨_, _, _, _, _, _, _, _, _, _, _, _, _, _, l, _, _⟩ := s
    obtain ⟨_, _, _, _, _, _, _, _, _, _, _, _, _⟩ := l
    simp only at hs hw hr
    subst hs hw hr
    rfl
  rw [State.deliver, if_neg hm, State.arrive, e]

/-- A request command on a ready part answers its frame. -/
theorem exec_of_requestFrame (c : Instr) (f : Frame) (s : State) (hc : requestFrame c = some f)
    (h : s.ready = true) : exec c s = .next (State.answer f s).kick := by
  cases c <;> simp only [requestFrame, Option.some.injEq, reduceCtorEq] at hc <;> subst hc <;>
    exact congrArg Host.Outcome.next (State.deliver_ready s _ _ _ h)

/-- A request command delivers its frame. -/
theorem exec_eq_deliver (c : Instr) (f : Frame) (s : State) (hc : requestFrame c = some f) :
    exec c s = .next (s.deliver f.kind f.tag f.body) := by
  cases c <;> simp only [requestFrame, Option.some.injEq, reduceCtorEq] at hc <;> subst hc <;> rfl

/-- The STATUS byte does not read the numbering of free choices. -/
theorem State.statusByte_freeCount (s : State) (n : Nat) :
    State.statusByte { s with freeCount := n } = s.statusByte := rfl

/-- A part without a reply to build builds none. -/
theorem Link.builtWith_of_built (l : Link) (b : Byte) (h : l.unbuilt = false) : l.builtWith b = l := by
  obtain ⟨_, _, v, _, _, _, _, _, _, _, _, _, _⟩ := l
  rcases v with _ | ⟨_, _, _, _ | _⟩
  · rfl
  · simp [Link.unbuilt] at h
  · rfl

/-- Building the reply that is not built yet (R182, R184). -/
theorem State.build_link (s : State) : s.build.link = s.link.builtWith s.statusByte := by
  obtain ⟨_, _, _, _, _, _, _, _, _, _, _, _, _, _, l, _, _⟩ := s
  obtain ⟨_, _, v, _, _, _, _, _, _, _, _, _, _⟩ := l
  rcases v with _ | ⟨_, _, _, _ | _⟩ <;> rfl

/-- A reply that need not be built may be built. -/
theorem State.mayBuild_link (s : State) :
    s.mayBuild.link = s.link ∨ s.mayBuild.link = s.link.builtWith s.statusByte := by
  unfold State.mayBuild State.pick
  simp only [Nat.reduceLeDiff, if_false]
  repeat' split
  · exact Or.inr (State.build_link _)
  · exact Or.inl rfl
  · exact Or.inl rfl

/-- A reply that is begun is built by then. -/
theorem State.beginReply_link (s : State) (v : Service) (h : s.link.service = some v) :
    ∃ w r, (s.link.builtWith s.statusByte).service = some w ∧ w.reply = some r
      ∧ s.beginReply.link = { s.link.builtWith s.statusByte with tx := .sending r .reply } := by
  obtain ⟨_, _, _, _, _, _, _, _, _, _, _, _, _, _, l, _, _⟩ := s
  obtain ⟨_, _, _, _, _, _, _, _, _, _, _, _, _⟩ := l
  simp only at h
  subst h
  rcases v with ⟨_, _, _, _ | _⟩ <;> exact ⟨_, _, rfl, rfl, rfl⟩

/-- Building a reply leaves the notices and the transmitter. -/
theorem Link.builtWith_eq (l : Link) (b : Byte) :
    l.builtWith b = { l with overrun := (l.builtWith b).overrun, service := (l.builtWith b).service } := by
  obtain ⟨_, _, v, _, _, _, _, _, _, _, _, _, _⟩ := l
  rcases v with _ | ⟨_, _, _, _ | _⟩ <;> rfl

/-- A notice that is begun leaves a reply that waits built or not. -/
theorem State.noticeFirst_link (s : State) (n : Notice) (ns : List Notice) (h : s.link.notices = n :: ns) :
    s.noticeFirst.link = { s.link with tx := .sending n.frame .notice, notices := ns }
    ∨ s.noticeFirst.link
      = { s.link.builtWith s.statusByte with tx := .sending n.frame .notice, notices := ns } := by
  unfold State.noticeFirst
  dsimp only
  rcases State.mayBuild_link s with e | e <;> rw [e]
  · left; simp [Link.beginNotice, h]
  · right; rw [Link.builtWith_eq]; simp [Link.beginNotice, h]

/-- What the transmitter does after any event (R191). -/
theorem State.kick_became (s : State) : Became s s.kick := by
  have hb : State.statusByte { s.kick with link := s.link } = s.statusByte := by rw [State.kick_eq]; rfl
  refine ⟨State.kick_eq s, ?_⟩
  unfold NoticeBegun
  dsimp only
  rw [hb]
  unfold State.kick State.pick
  simp only [Nat.reduceLeDiff, if_false]
  split
  · next h => left; exact ⟨by simp [h], State.mayBuild_link s⟩
  · next htx =>
    right
    refine ⟨htx, ?_⟩
    have hw : s.link.replyWaits = s.link.service.isSome := by
      unfold Link.replyWaits; rw [htx]; cases s.link.service <;> rfl
    rw [hw]
    split
    · next hr hn => exact Or.inl ⟨hn, by simpa using hr, rfl⟩
    · next hr hn =>
      obtain ⟨v, hv⟩ := Option.isSome_iff_exists.1 hr
      exact Or.inr (Or.inr (State.beginReply_link s v hv))
    · next n ns hr hn => exact Or.inr (Or.inl ⟨n, ns, hn, Or.inl (by simp [Link.beginNotice, hn])⟩)
    · next n ns hr hn =>
      obtain ⟨v, hv⟩ := Option.isSome_iff_exists.1 hr
      split
      · exact Or.inr (Or.inr (State.beginReply_link { s with freeCount := s.freeCount + 1 } v hv))
      · exact Or.inr (Or.inl ⟨n, ns, hn, State.noticeFirst_link { s with freeCount := s.freeCount + 1 } n ns hn⟩)

/-- The reply is built within the event of taking the request, in the statements' terms (log 13). -/
theorem Answer.builtAtOnce_iff (a : Answer) (f : Frame) :
    a.builtAtOnce f = true ↔ a.result = .refusedState ∨ a.result = .order ∨ a.result = .locked
      ∨ a.result = .ok ∧ (f.kind = 0x03 ∨ f.kind = 0x12 ∨ f.kind = 0x16) := by
  have h : ∀ b : Byte, Answer.builtAtOnce { a with result := .ok } { f with kind := b } = true
      ↔ b = 0x03 ∨ b = 0x12 ∨ b = 0x16 := by unfold Answer.builtAtOnce; dsimp only; decide +kernel
  obtain ⟨r, _, _⟩ := a
  cases r
  · exact (h f.kind).trans (by simp)
  all_goals simp [Answer.builtAtOnce]

/-- What a transmitter does with a Link Unit whose decoder has just answered a request (R191). -/
theorem NoticeBegun.served {a : Answer} {f : Frame} {m t : State}
    (hm : m = { a.state with
      link := { a.state.link with service := some (Service.mk f a.result.code a.fields none) } })
    (ht : ∀ l : Link, State.statusByte { t with link := l } = State.statusByte { a.state with link := l })
    (h : NoticeBegun (if a.builtAtOnce f then m.build else m).link t) :
    Served f a.result a.fields a.state.link t := by
  have hiff := Answer.builtAtOnce_iff a f
  obtain ⟨b, hb⟩ : ∃ b, b = State.statusByte { a.state with link := a.state.link } := ⟨_, rfl⟩
  have hbuilt : m.build.link = m.link.builtWith b := by rw [State.build_link, hb, hm]; rfl
  have hlater : ∀ l : Link, l.builtWith b = m.link.builtWith b → l = m.link ∨ l = m.link.builtWith b →
      NoticeBegun l t →
        (l.tx ≠ .idle ∧ (t.link = l ∨ t.link = m.link.builtWith b))
        ∨ l.tx = .idle ∧ ((∃ n ns, l.notices = n :: ns
            ∧ (t.link = { l with tx := .sending n.frame .notice, notices := ns }
              ∨ t.link = { m.link.builtWith b with tx := .sending n.frame .notice, notices := ns }))
          ∨ t.link = { m.link.builtWith b with
              tx := .sending (replyTo f a.result.code b a.fields) .reply }) := by
    intro l he hl hn
    have hs : State.statusByte { t with link := l } = b ∨ l = m.link.builtWith b := by
      rcases hl with hl | hl
      · left; rw [ht, hb, hl, hm]; rfl
      · exact Or.inr hl
    have hw : l.builtWith (State.statusByte { t with link := l }) = m.link.builtWith b := by
      rcases hs with e | e
      · rw [e, he]
      · rw [e, hm]; rfl
    unfold NoticeBegun at hn
    dsimp only at hn
    rw [hw] at hn
    have hv : (m.link.builtWith b).service
        = some (Service.mk f a.result.code a.fields (some (replyTo f a.result.code b a.fields))) := by
      rw [hm]; rfl
    have hsv : l.service ≠ none := by
      rcases hl with e | e <;> rw [e]
      · rw [hm]; simp
      · rw [hv]; simp
    rcases hn with hn | ⟨hi, hn | hn | ⟨v, r, h1, h2, h3⟩⟩
    · exact Or.inl hn
    · exact absurd hn.2.1 hsv
    · exact Or.inr ⟨hi, Or.inl hn⟩
    · rw [hv] at h1
      cases h1
      cases h2
      exact Or.inr ⟨hi, Or.inr h3⟩
  have hL : m.link.builtWith b = { a.state.link with
      overrun := false
      service := some (Service.mk f a.result.code a.fields (some (replyTo f a.result.code b a.fields))) } := by
    rw [hm]; rfl
  have hM : m.link = { a.state.link with service := some (Service.mk f a.result.code a.fields none) } := by rw [hm]
  unfold Served
  dsimp only
  rw [ht, ← hb, ← hiff]
  have htx : m.link.tx = a.state.link.tx := by rw [hm]
  have hn : m.link.notices = a.state.link.notices := by rw [hm]
  have htb : (m.link.builtWith b).tx = a.state.link.tx := by rw [hL]
  have hnb : (m.link.builtWith b).notices = a.state.link.notices := by rw [hL]
  have hx : (a.state.link.tx ≠ .idle ∧ (t.link = m.link.builtWith b ∨ ¬a.builtAtOnce f = true ∧ t.link = m.link))
      ∨ a.state.link.tx = .idle ∧ ((∃ n ns, a.state.link.notices = n :: ns
          ∧ (t.link = { m.link.builtWith b with tx := .sending n.frame .notice, notices := ns }
            ∨ ¬a.builtAtOnce f = true ∧ t.link = { m.link with tx := .sending n.frame .notice, notices := ns }))
        ∨ t.link = { m.link.builtWith b with
            tx := .sending (replyTo f a.result.code b a.fields) .reply }) := by
    cases hc : a.builtAtOnce f <;> rw [hc] at h
    · rcases hlater m.link rfl (Or.inl rfl) h with ⟨h1, h2⟩ | ⟨h1, ⟨n, ns, h2, h3⟩ | h2⟩
      · exact Or.inl ⟨htx ▸ h1, h2.symm.imp id fun e => ⟨by simp, e⟩⟩
      · exact Or.inr ⟨htx ▸ h1, Or.inl ⟨n, ns, hn ▸ h2, h3.symm.imp id fun e => ⟨by simp, e⟩⟩⟩
      · exact Or.inr ⟨htx ▸ h1, Or.inr h2⟩
    · rw [if_pos rfl, hbuilt] at h
      rcases hlater _ (by rw [hL]; rfl) (Or.inr rfl) h with ⟨h1, h2⟩ | ⟨h1, ⟨n, ns, h2, h3⟩ | h2⟩
      · exact Or.inl ⟨htb ▸ h1, Or.inl (h2.elim id id)⟩
      · exact Or.inr ⟨htb ▸ h1, Or.inl ⟨n, ns, hnb ▸ h2, Or.inl (h3.elim id id)⟩⟩
      · exact Or.inr ⟨htb ▸ h1, Or.inr h2⟩
  rw [hL, hM] at hx
  split
  · next e => exact hx.elim (·.2) fun h => absurd (e.symm.trans h.1) (by simp)
  · next e en =>
    rcases hx with ⟨h1, _⟩ | ⟨_, ⟨n, ns, h1, _⟩ | h2⟩
    · exact absurd e h1
    · exact absurd (en.symm.trans h1) (by simp)
    · exact h2
  · next n ns e en =>
    rcases hx with ⟨h1, _⟩ | ⟨_, ⟨m', ms, h1, h2⟩ | h2⟩
    · exact absurd e h1
    · cases en.symm.trans h1
      exact Or.inr h2
    · exact Or.inl h2

/-- A request command on a ready part answers as the decoder judges it. -/
theorem exec_taken (c : Instr) (f : Frame) (s : State) (hc : requestFrame c = some f) (h : s.ready = true) :
    ∃ t, exec c s = .next t ∧ Taken c (s.judge f).result (s.judge f).fields (s.judge f).state t := by
  refine ⟨_, exec_of_requestFrame c f s hc h, f, hc, ?_⟩
  obtain ⟨h1, h2⟩ := State.kick_became (State.answer f s)
  generalize (State.answer f s).kick = t at h1 h2
  have h0 : State.answer f s = { (s.judge f).state with link := (State.answer f s).link } := by
    unfold State.answer
    dsimp only
    split
    · rw [State.build_eq]
    · rfl
  have h3 : t = { (s.judge f).state with link := t.link, freeCount := t.freeCount } := by rw [h1, h0]
  refine ⟨h3, NoticeBegun.served rfl ?_ h2⟩
  intro l
  rw [h3]
  rfl

/-- The decoder's judgement where its five checks pass: the owning unit's answer (R183). -/
theorem State.judge_take (s : State) (f : Frame) (k : ReqKind) (hk : ReqKind.ofCode f.kind = some k)
    (h : k.lenOk f.body = true ∧ k.modeOk s.ctl.mode = true ∧ k.orderOk s.ctl = true
      ∧ k.locked s.ctl = false) : s.judge f = k.take f.body s := by
  simp [State.judge, hk, h]

end Sys2Proof.Machine
end

