-- ==== Sys2Proof/Laws/Decoder.lean ====
section
/-! SUPPORT. The decoder's checks against the table of requests, kind by kind. -/

namespace Sys2Proof.Machine

/-- A kind is known to the decoder exactly where the table has its row (R192). -/
theorem rowOf_eq_none (b : Byte) : rowOf b = none ↔ ReqKind.ofCode b = none := by
  revert b; decide +kernel

/-- The code of a known kind is the code it was read from (R192). -/
theorem ReqKind.code_of_ofCode (b : Byte) (k : ReqKind) (h : ReqKind.ofCode b = some k) : b = k.code := by
  have : ∀ b : Byte, ∀ k ∈ ReqKind.ofCode b, b = k.code := by decide +kernel
  exact this b k h

/-- Every kind is read back from its code (R192). -/
theorem ReqKind.ofCode_code (k : ReqKind) : ReqKind.ofCode k.code = some k := by cases k <;> rfl

/-- The decoder's checks of length, mode, order and locks are those of the kind's row (R171, R195). -/
theorem ReqKind.checks_of_row (k : ReqKind) (r : RequestRow) (h : rowOf k.code = some r) :
    (∀ body, k.lenOk body = true ↔ r.lengthOk body)
    ∧ (∀ m, k.modeOk m = true ↔ r.modeOk m)
    ∧ (∀ c : ModeCtl, k.orderOk c = true ↔ r.orderOk c)
    ∧ ∀ c : ModeCtl, k.locked c = true ↔ r.locked c := by
  refine ⟨fun body => ?_, fun m => ?_, fun c => ?_, fun c => ?_⟩
  · cases k <;> cases h <;>
      simp [ReqKind.lenOk, RequestRow.lengthOk, row, List.mem_cons, tableLenOk] <;> try omega
    split <;> simp_all [BitVec.toNat_eq] <;> omega
  · cases k <;> cases h <;> cases m <;> simp [ReqKind.modeOk, RequestRow.modeOk, row, inModes]
  · cases k <;> cases h <;> simp [ReqKind.orderOk, RequestRow.orderOk, row] <;>
      (cases c.layoutOk <;> simp)
  · cases k <;> cases h <;> simp [ReqKind.locked, RequestRow.locked, row]

end Sys2Proof.Machine
end

