-- ==== Sys2Proof/Laws/Outputs.lean ====
section
/-! SUPPORT. An output record that follows the state shows what the statements say. -/

namespace Sys2Proof.Machine

/-! ### What is wanted -/

/-- A pattern as the statements read it. -/
def Pattern.wanted : Pattern → Option (Bool × Bool × Bool)
  | .released => none
  | .wants a b d => some (a, b, d)

/-- The pattern of a channel is what the statements' table wants (R78, R82–R84, R86, R88). -/
theorem State.pattern_wanted (s : State) (c : ChanId) (o : Out) :
    (s.pattern c o).wanted = s.wants c o.ref o.side := by
  have hd : ∀ m, (drivePattern m o).wanted = wantedOf m .inactive .driving .idle o.ref o.side := by
    intro m
    cases m <;> simp [drivePattern, wantedOf, Pattern.wanted, Pattern.off]
    cases h : o.side <;> simp
  have hd' : ∀ m d st t, (t = DriveState.driving ∨ t = DriveState.ramping) →
      (drivePattern m o).wanted = wantedOf m d t st o.ref o.side := by
    intro m d st t h
    rw [hd]
    rcases h with h | h <;> subst h <;> rfl
  unfold State.pattern State.wants
  dsimp only
  cases hm : s.ctl.mode
  · simp [Pattern.wanted]
  all_goals
    simp only [reduceCtorEq, if_false]
    cases hds : s.driveState c
    case driving => exact hd' _ _ _ _ (Or.inl rfl)
    case ramping => exact hd' _ _ _ _ (Or.inr rfl)
    case tripped =>
      cases hs : (s.chans.get c).cfg.safe <;>
        simp [safePatternOf, wantedOf, Pattern.wanted, Pattern.off, brakePattern]
    case checking =>
      cases hp : s.check.position with
      | none => rfl
      | some p =>
        dsimp only
        cases hst : p.step
        case pulsePos => exact hd _
        case pulseNeg => exact hd _
        all_goals rfl
    all_goals rfl

/-- The wanted-time delay is asked for in COMPLEMENT mode alone (R80). -/
theorem wantedOf_delayed {m : ChanMode} {p : SafePattern} {d : DriveState} {st : CheckStep} {ref : Bool} {side : Side}
    {a b : Bool} (h : wantedOf m p d st ref side = some (a, b, true)) : m = .complement := by
  cases m <;> cases d <;> cases p <;> cases st <;> simp_all [wantedOf]

/-! ### What the pins show -/

/-- When output A may become ACTIVE (R79, R80). -/
theorem Out.mayRiseA_iff (o : Out) (dead : Nat) (d : Bool) : o.mayRiseA dead d = true ↔
    o.wantA = true ∧ o.pinB ≠ .active ∧ dead ≤ o.offB ∧ (d = true → dead ≤ o.wtA) := by
  cases d <;> simp [Out.mayRiseA, guardAllows, and_assoc]

/-- When output B may become ACTIVE (R79, R80). -/
theorem Out.mayRiseB_iff (o : Out) (dead : Nat) (d : Bool) : o.mayRiseB dead d = true ↔
    o.wantB = true ∧ o.pinA ≠ .active ∧ dead ≤ o.offA ∧ (d = true → dead ≤ o.wtB) := by
  cases d <;> simp [Out.mayRiseB, guardAllows, and_assoc]

/-- A pin drive right after its wanted level changed is ACTIVE only where it was and is wanted (R79). -/
theorem PinDrive.drop_active (p : PinDrive) (x : Bool) : p.drop x = .active ↔ p = .active ∧ x = true := by
  cases p <;> cases x <;> simp [PinDrive.drop]

/-- A pin drive right after its wanted level changed is ACTIVE or INACTIVE (R79, R85). -/
theorem PinDrive.drop_inactive (p : PinDrive) (x : Bool) (h : p.drop x ≠ .active) : p.drop x = .inactive := by
  cases p <;> cases x <;> simp_all [PinDrive.drop]

/-- A record that follows a pattern of wanted levels (R79, R80). -/
theorem Out.follow_wants (o : Out) (mode : ChanMode) (dead : Nat) (a b d : Bool) (hd : d = true → mode = .complement) :
    let u := o.follow mode dead (.wants a b d)
    u = { o with
      wantA := u.wantA, wantB := u.wantB, wtA := u.wtA, wtB := u.wtB, offA := u.offA, offB := u.offB
      pinA := u.pinA, pinB := u.pinB }
    ∧ u.wantA = a ∧ u.wantB = b
    ∧ u.wtA = (if a = true ∧ mode = .complement then o.wtA else 0)
    ∧ u.wtB = (if b = true ∧ mode = .complement then o.wtB else 0)
    ∧ (u.pinA = .active ↔ a = true ∧ (o.pinA = .active
        ∨ ¬(o.pinB = .active ∧ b = true) ∧ dead ≤ o.offB ∧ (d = true → dead ≤ o.wtA)))
    ∧ (u.pinB = .active ↔ b = true ∧ (o.pinB = .active
        ∨ u.pinA ≠ .active ∧ dead ≤ o.offA ∧ (d = true → dead ≤ o.wtB)))
    ∧ (u.pinA ≠ .active → u.pinA = .inactive ∧ u.offA = o.offA)
    ∧ (u.pinB ≠ .active → u.pinB = .inactive ∧ u.offB = o.offB)
    ∧ (u.pinA = .active → o.pinA ≠ .active → u.offA = 0)
    ∧ (u.pinB = .active → o.pinB ≠ .active → u.offB = 0) := by
  dsimp only
  have ew : ∀ x t, x = true → d = true → (dead ≤ keepWanted mode x t ↔ dead ≤ t) := by
    intro x t hx hdt
    simp [keepWanted, hx, hd hdt]
  have eA : (o.take mode (.wants a b d)).mayRiseA dead d = true ↔
      a = true ∧ ¬(o.pinB = .active ∧ b = true) ∧ dead ≤ o.offB ∧ (d = true → dead ≤ o.wtA) := by
    rw [Out.mayRiseA_iff]
    show a = true ∧ ¬o.pinB.drop b = .active ∧ dead ≤ o.offB ∧ (d = true → dead ≤ keepWanted mode a o.wtA) ↔ _
    rw [PinDrive.drop_active]
    exact and_congr_right fun h => and_congr_right fun _ => and_congr_right fun _ => forall_congr' fun g => ew a _ h g
  generalize hq : o.take mode (.wants a b d) = q at eA
  have q1 : q = { o with
      wantA := a, wantB := b, wtA := keepWanted mode a o.wtA, wtB := keepWanted mode b o.wtB
      pinA := o.pinA.drop a, pinB := o.pinB.drop b } := hq.symm
  have kw : ∀ x t, keepWanted mode x t = if x = true ∧ mode = .complement then t else 0 := by
    intro x t; simp [keepWanted]
  have hf : o.follow mode dead (.wants a b d) = (q.riseA dead d).riseB dead d := by rw [← hq]; rfl
  rw [hf]
  generalize hr : q.riseA dead d = r
  have r1 : r.pinB = o.pinB.drop b ∧ r.offB = o.offB ∧ r.wantA = a ∧ r.wantB = b ∧ r.wtA = keepWanted mode a o.wtA
      ∧ r.wtB = keepWanted mode b o.wtB ∧ r.compare = o.compare ∧ r.side = o.side ∧ r.ref = o.ref
      ∧ r.prior = o.prior := by
    rw [← hr]; unfold Out.riseA; split <;> (rw [q1]; simp)
  have r2 : r.pinA = .active ↔ a = true ∧ (o.pinA = .active
        ∨ ¬(o.pinB = .active ∧ b = true) ∧ dead ≤ o.offB ∧ (d = true → dead ≤ o.wtA)) := by
    rw [← hr]; unfold Out.riseA
    split
    · next h => simp only [true_iff]; exact ⟨(eA.1 h).1, Or.inr (eA.1 h).2⟩
    · next h =>
      rw [q1]
      simp only [PinDrive.drop_active]
      exact ⟨fun hh => ⟨hh.2, Or.inl hh.1⟩, fun hh => ⟨hh.2.resolve_right fun g => h (eA.2 ⟨hh.1, g⟩), hh.1⟩⟩
  have r3 : (r.pinA ≠ .active → r.pinA = .inactive ∧ r.offA = o.offA)
      ∧ (r.pinA = .active → o.pinA ≠ .active → r.offA = 0) := by
    rw [← hr]; unfold Out.riseA
    split
    · simp
    · rw [q1]
      exact ⟨fun h => ⟨PinDrive.drop_inactive _ _ h, rfl⟩, fun h g => absurd ((PinDrive.drop_active _ _).1 h).1 g⟩
  have eB : r.mayRiseB dead d = true ↔ b = true ∧ r.pinA ≠ .active ∧ dead ≤ r.offA ∧ (d = true → dead ≤ o.wtB) := by
    rw [Out.mayRiseB_iff, r1.2.2.2.1, r1.2.2.2.2.2.1]
    exact and_congr_right fun h => and_congr_right fun _ => and_congr_right fun _ => forall_congr' fun g => ew b _ h g
  generalize hu : r.riseB dead d = u
  have u1 : u.pinA = r.pinA ∧ u.offA = r.offA ∧ u.wantA = a ∧ u.wantB = b ∧ u.wtA = keepWanted mode a o.wtA
      ∧ u.wtB = keepWanted mode b o.wtB ∧ u.compare = o.compare ∧ u.side = o.side ∧ u.ref = o.ref
      ∧ u.prior = o.prior := by
    rw [← hu]; unfold Out.riseB; split <;> simp [r1]
  obtain ⟨uA, uoA, ua, ub, uwA, uwB, uc, us, ur, up⟩ := u1
  refine ⟨?_, ua, ub, by rw [uwA, kw], by rw [uwB, kw], by rw [uA]; exact r2, ?_, by rw [uA, uoA]; exact r3.1, ?_,
    by rw [uA, uoA]; exact r3.2, ?_⟩
  · obtain ⟨x1, x2, x3, x4, x5, x6, x7, x8, x9, x10, x11, x12⟩ := u
    simp only at uc us ur up
    subst uc us ur up
    rfl
  · rw [uA, ← hu]; unfold Out.riseB
    split
    · next h =>
      simp only [true_iff]
      have g := eB.1 h
      exact ⟨g.1, Or.inr ⟨g.2.1, (r3.1 g.2.1).2 ▸ g.2.2.1, g.2.2.2⟩⟩
    · next h =>
      rw [r1.1, PinDrive.drop_active]
      refine ⟨fun hh => ⟨hh.2, Or.inl hh.1⟩, fun hh => ⟨hh.2.resolve_right fun g => h (eB.2 ⟨hh.1, g.1, ?_, g.2.2⟩), hh.1⟩⟩
      rw [(r3.1 g.1).2]; exact g.2.1
  · rw [← hu]; unfold Out.riseB
    split
    · simp
    · rw [r1.1, r1.2.1]
      exact fun h => ⟨PinDrive.drop_inactive _ _ h, rfl⟩
  · rw [← hu]; unfold Out.riseB
    split
    · simp
    · rw [r1.1]
      exact fun h g => absurd ((PinDrive.drop_active _ _).1 h).1 g

/-- The reference after it has followed the counter (R75, R76; log 3). -/
theorem Out.refresh_eq (o : Out) (t : Timebase) : o.refresh t = { o with
    ref := if t.frameEndDue = true ∧ t.run = .running then o.ref
      else if t.active.align = .centred ∧ t.dir = .down then decide (t.counter ≤ o.compare)
      else decide (t.counter < o.compare) } := by
  unfold Out.refresh Timebase.refOf
  by_cases h : t.frameEndDue = true ∧ t.run = .running
  · simp [h]
  · have h' : ¬((t.frameEndDue && decide (t.run = .running)) = true) := by simpa using h
    rw [if_neg h', if_neg h]
    cases t.active.align <;> cases t.dir <;> simp

/-- What a channel showed before a boundary follows the state as the statements say (R79; log 33). -/
theorem State.settledPrior_eq (s : State) (c : ChanId) (o : Out) :
    s.settledPrior c o = o.prior.map (fun h => h.left (s.chans.get c).mode (s.wants c h.ref h.side)) := by
  have drop : ∀ (p : PinDrive) x, p.drop x = if p = .active ∧ x = true then .active else .inactive := by
    intro p x; cases p <;> cases x <;> rfl
  have kw : ∀ m x t, keepWanted m x t = if x = true ∧ m = .complement then t else 0 := by
    intro m x t; simp [keepWanted]
  refine congrArg (fun f => o.prior.map f) (funext fun h => ?_)
  have hw := State.pattern_wanted s c (o.withShown h)
  have e : s.wants c (o.withShown h).ref (o.withShown h).side = s.wants c h.ref h.side := rfl
  rw [e] at hw
  rw [← hw]
  cases s.pattern c (o.withShown h) with
  | released => rfl
  | wants a b d => simp only [Pattern.wanted, Out.take, Out.shown, Out.withShown, Shown.left, drop, kw]

/-- An output record that follows the state shows what the state asks (R75, R76, R78–R80, R82–R84, R86). -/
theorem State.settledOut_shows (s : State) (c : ChanId) (o : Out) : Shows s c o (s.settledOut c o) := by
  have hw : ∀ r : Out, r.side = o.side → s.wants c r.ref o.side = (s.pattern c r).wanted := by
    intro r h; rw [State.pattern_wanted, h]
  unfold State.settledOut
  dsimp only
  generalize hr : o.refresh s.tb = r
  have hr' := Out.refresh_eq o s.tb
  rw [hr] at hr'
  have hside : r.side = o.side := by rw [hr']
  have hw := hw r hside
  cases hp : s.pattern c r with
  | released =>
    rw [hp] at hw
    have e : r.follow (s.chans.get c).mode (s.chans.get c).deadTime .released = { r with
        wantA := false, wantB := false, wtA := 0, wtB := 0, pinA := .released, pinB := .released } := by
      simp [Out.follow, Out.take, Out.riseA, Out.riseB, Out.mayRiseA, Out.mayRiseB]
    rw [e]
    refine ⟨by rw [hr'], State.settledPrior_eq s c o, by rw [hr'], ?_⟩
    dsimp only
    rw [hw]
    show _ = _
    rw [hr']
  | wants a b d =>
    rw [hp] at hw
    have hd : d = true → (s.chans.get c).mode = .complement := by
      intro h
      subst h
      have := hw
      unfold State.wants at this
      split at this
      · simp [Pattern.wanted] at this
      · exact wantedOf_delayed this
    have hf := Out.follow_wants r (s.chans.get c).mode (s.chans.get c).deadTime a b d hd
    dsimp only at hf
    generalize r.follow (s.chans.get c).mode (s.chans.get c).deadTime (.wants a b d) = u at hf
    obtain ⟨h0, h1⟩ := hf
    have hur : u.ref = r.ref := by rw [h0]
    refine ⟨?_, State.settledPrior_eq s c o, ?_, ?_⟩
    · rw [h0, hr']
    · rw [hur, hr']
    · rw [hur, hw]
      simp only [Pattern.wanted]
      rw [hr'] at h1
      exact h1

/-! ### Following twice, and after an operation -/

/-- An output that has become ACTIVE where it may gains nothing from a second test (R79, R80). -/
theorem Out.riseB_riseB (o : Out) (dead : Nat) (d : Bool) : (o.riseB dead d).riseB dead d = o.riseB dead d := by
  unfold Out.riseB
  by_cases h : o.mayRiseB dead d = true
  · simp [h]
  · simp [h]

/-- Output A gains nothing from a test after output B's (R79, R80). -/
theorem Out.riseA_riseB_riseA (o : Out) (dead : Nat) (d : Bool) :
    ((o.riseA dead d).riseB dead d).riseA dead d = (o.riseA dead d).riseB dead d := by
  generalize hr : o.riseA dead d = r
  by_cases hb : r.mayRiseB dead d = true
  · have e : r.riseB dead d = { r with pinB := .active, offB := 0 } := by simp [Out.riseB, hb]
    rw [e]
    simp [Out.riseA, Out.mayRiseA, guardAllows]
  · have e : r.riseB dead d = r := by simp [Out.riseB, hb]
    rw [e, ← hr]
    unfold Out.riseA
    by_cases ha : o.mayRiseA dead d = true
    · simp [ha]
    · simp [ha]

/-- A record that already follows a pattern keeps following it unchanged (R79, R80). -/
theorem Out.follow_follow (o : Out) (mode : ChanMode) (dead : Nat) (p : Pattern) :
    (o.follow mode dead p).follow mode dead p = o.follow mode dead p := by
  have ht : (o.follow mode dead p).take mode p = o.follow mode dead p := by
    have hk : ∀ x t, keepWanted mode x (keepWanted mode x t) = keepWanted mode x t := by
      intro x t; unfold keepWanted; split <;> rfl
    have hd : ∀ (q : PinDrive) x, (q.drop x).drop x = q.drop x := by
      intro q x; cases q <;> cases x <;> rfl
    cases p with
    | released => simp [Out.follow, Out.take, Out.riseA, Out.riseB, Out.mayRiseA, Out.mayRiseB]
    | wants a b d =>
      show Out.take (((o.take mode _).riseA dead d).riseB dead d) mode _ = ((o.take mode _).riseA dead d).riseB dead d
      generalize hq : o.take mode (.wants a b d) = q
      have q1 : q.wantA = a ∧ q.wantB = b ∧ keepWanted mode a q.wtA = q.wtA ∧ keepWanted mode b q.wtB = q.wtB
          ∧ q.pinA.drop a = q.pinA ∧ q.pinB.drop b = q.pinB := by
        rw [← hq]; exact ⟨rfl, rfl, hk _ _, hk _ _, hd _ _, hd _ _⟩
      generalize hr : q.riseA dead d = r
      have r1 : r.wantA = a ∧ r.wantB = b ∧ keepWanted mode a r.wtA = r.wtA ∧ keepWanted mode b r.wtB = r.wtB
          ∧ r.pinA.drop a = r.pinA ∧ r.pinB.drop b = r.pinB := by
        rw [← hr]; unfold Out.riseA
        split
        · next h =>
          have ha := ((Out.mayRiseA_iff _ _ _).1 h).1
          rw [q1.1] at ha
          exact ⟨q1.1, q1.2.1, q1.2.2.1, q1.2.2.2.1, by rw [ha]; rfl, q1.2.2.2.2.2⟩
        · exact q1
      generalize hu : r.riseB dead d = u
      have u1 : u.wantA = a ∧ u.wantB = b ∧ keepWanted mode a u.wtA = u.wtA ∧ keepWanted mode b u.wtB = u.wtB
          ∧ u.pinA.drop a = u.pinA ∧ u.pinB.drop b = u.pinB := by
        rw [← hu]; unfold Out.riseB
        split
        · next h =>
          have hb := ((Out.mayRiseB_iff _ _ _).1 h).1
          rw [r1.2.1] at hb
          exact ⟨r1.1, r1.2.1, r1.2.2.1, r1.2.2.2.1, r1.2.2.2.2.1, by rw [hb]; rfl⟩
        · exact r1
      obtain ⟨uc, us, ur, uwa, uwb, utA, utB, uoA, uoB, upA, upB⟩ := u
      obtain ⟨h1, h2, h3, h4, h5, h6⟩ := u1
      simp only at h1 h2 h3 h4 h5 h6
      subst h1 h2
      simp only [Out.take, h3, h4, h5, h6]
  show ((Out.take (o.follow mode dead p) mode p).riseA dead p.delayed).riseB dead p.delayed = _
  rw [ht]
  show (((((o.take mode p).riseA dead p.delayed).riseB dead p.delayed).riseA dead p.delayed).riseB dead p.delayed) = _
  rw [Out.riseA_riseB_riseA, Out.riseB_riseB]
  rfl

/-- What a channel's pattern reads of its output record (R78). -/
theorem State.pattern_congr (s : State) (c : ChanId) {o u : Out} (hr : u.ref = o.ref) (hs : u.side = o.side) :
    s.pattern c u = s.pattern c o := by
  have hd : ∀ m, drivePattern m u = drivePattern m o := by
    intro m; cases m <;> simp only [drivePattern, hr, hs]
  unfold State.pattern checkPattern
  simp only [hd]

/-- A record that follows a pattern keeps its compare value, side and reference. -/
theorem Out.follow_kept (o : Out) (mode : ChanMode) (dead : Nat) (p : Pattern) :
    (o.follow mode dead p).compare = o.compare ∧ (o.follow mode dead p).side = o.side
    ∧ (o.follow mode dead p).ref = o.ref := by
  unfold Out.follow Out.riseB Out.riseA Out.take
  cases p <;> dsimp only <;> repeat' split
  all_goals exact ⟨rfl, rfl, rfl⟩

/-- Following a pattern neither reads nor changes what was shown before. -/
theorem Out.follow_prior (o : Out) (mode : ChanMode) (dead : Nat) (p : Pattern) (x : Option Shown) :
    ({ o with prior := x } : Out).follow mode dead p = { o.follow mode dead p with prior := x } := by
  have hA : ∀ (q : Out) d, ({ q with prior := x } : Out).riseA dead d = { q.riseA dead d with prior := x } := by
    intro q d
    show (if q.mayRiseA dead d = true then _ else _) = _
    unfold Out.riseA
    split <;> rfl
  have hB : ∀ (q : Out) d, ({ q with prior := x } : Out).riseB dead d = { q.riseB dead d with prior := x } := by
    intro q d
    show (if q.mayRiseB dead d = true then _ else _) = _
    unfold Out.riseB
    split <;> rfl
  have hT : ({ o with prior := x } : Out).take mode p = { o.take mode p with prior := x } := by cases p <;> rfl
  unfold Out.follow
  rw [hT, hA, hB]

/-- What is left of the outputs keeps their reference and side. -/
theorem Shown.left_kept (h : Shown) (m : ChanMode) (w : Option (Bool × Bool × Bool)) :
    (h.left m w).ref = h.ref ∧ (h.left m w).side = h.side := by
  cases w <;> exact ⟨rfl, rfl⟩

/-- What is left is left once. -/
theorem Shown.left_left (h : Shown) (m : ChanMode) (w : Option (Bool × Bool × Bool)) :
    (h.left m w).left m w = h.left m w := by
  cases w with
  | none => rfl
  | some x =>
    obtain ⟨a, b, d⟩ := x
    simp only [Shown.left, Shown.mk.injEq, true_and]
    refine ⟨?_, ?_, ?_, ?_⟩ <;> split <;> simp_all

/-- What was shown before follows the state once (log 33). -/
theorem State.settledPrior_settledPrior (s : State) (c : ChanId) (o u : Out) (h : u.prior = s.settledPrior c o) :
    s.settledPrior c u = u.prior := by
  rw [State.settledPrior_eq s c u, h, State.settledPrior_eq s c o, Option.map_map]
  refine congrArg (fun f => o.prior.map f) (funext fun h => ?_)
  have hk := Shown.left_kept h (s.chans.get c).mode (s.wants c h.ref h.side)
  show Shown.left _ _ (s.wants c (h.left _ _).ref (h.left _ _).side) = _
  rw [hk.1, hk.2, Shown.left_left]

/-- Following the state twice is following it once: a settled record is settled (R78, R79). -/
theorem State.settledOut_settledOut (s : State) (c : ChanId) (o : Out) :
    s.settledOut c (s.settledOut c o) = s.settledOut c o := by
  have hp := State.settledPrior_settledPrior s c o (s.settledOut c o) rfl
  obtain ⟨k1, k2, k3⟩ := Out.follow_kept (o.refresh s.tb) (s.chans.get c).mode (s.chans.get c).deadTime
    (s.pattern c (o.refresh s.tb))
  have r1 : (o.refresh s.tb).compare = o.compare ∧ (o.refresh s.tb).side = o.side := by
    rw [Out.refresh_eq]; exact ⟨rfl, rfl⟩
  have h1 : (s.settledOut c o).compare = o.compare := k1.trans r1.1
  have h3 : (s.settledOut c o).ref = (o.refresh s.tb).ref := k3
  have hv : (s.settledOut c o).refresh s.tb = s.settledOut c o := by
    rw [Out.refresh_eq] at h3 ⊢
    generalize s.settledOut c o = u at h1 h3
    obtain ⟨uc, us, ur, uwa, uwb, utA, utB, uoA, uoB, upA, upB, up⟩ := u
    simp only at h1 h3
    subst h1 h3
    simp only [Out.mk.injEq, and_true, true_and]
    split <;> rfl
  have hq : s.pattern c (s.settledOut c o) = s.pattern c (o.refresh s.tb) :=
    State.pattern_congr s c h3 k2
  have hf : (s.settledOut c o).follow (s.chans.get c).mode (s.chans.get c).deadTime (s.pattern c (o.refresh s.tb))
      = s.settledOut c o := by
    show Out.follow { (o.refresh s.tb).follow _ _ _ with prior := _ } _ _ _ = _
    rw [Out.follow_prior, Out.follow_follow]
    rfl
  show { ((s.settledOut c o).refresh s.tb).follow (s.chans.get c).mode (s.chans.get c).deadTime
      (s.pattern c ((s.settledOut c o).refresh s.tb)) with prior := s.settledPrior c (s.settledOut c o) } = _
  rw [hp, hv, hq, hf]

/-- What a channel shows is read from the mode, the Timebase, the channel, its drive state and the check's step. -/
theorem Shows.congr {s t : State} {c : ChanId} {o u : Out} (hm : t.ctl.mode = s.ctl.mode) (hb : t.tb = s.tb)
    (hc : t.chans.get c = s.chans.get c) (hd : t.driveState c = s.driveState c)
    (hp : t.check.position = s.check.position) (h : Shows s c o u) : Shows t c o u := by
  unfold Shows State.wants at h ⊢
  rw [hm, hb, hc, hd, hp]
  exact h

/-- Settling the pins of a channel makes them show its state (R66, R78, R79). -/
theorem State.settleOn_shows (sel : ChanId → Bool) (s : State) (c : ChanId) (h : sel c = true) :
    Shows (s.settleOn sel) c (s.outs.get c) ((s.settleOn sel).outs.get c) := by
  have e : (s.settleOn sel).outs.get c = s.settledOut c (s.outs.get c) := by
    simp [State.settleOn, h]
  rw [e]
  exact (State.settledOut_shows s c (s.outs.get c)).congr rfl rfl rfl rfl rfl

/-- Settling twice is settling once (R78, R79). -/
theorem State.settle_settle (s : State) : s.settle.settle = s.settle := by
  have h : s.settle.settle.outs = s.settle.outs :=
    Bank.ext_get fun c => by
      have e : ∀ t : State, t.settle.outs.get c = t.settledOut c (t.outs.get c) := by
        intro t; simp [State.settle, State.settleOn]
      rw [e s.settle, e s]
      exact State.settledOut_settledOut s c (s.outs.get c)
  show { s.settle with outs := s.settle.settle.outs } = s.settle
  rw [h]

/-! ### What is loaded -/

/-- Loading the compare value and side of a level, as the statements say it (R74). -/
theorem Out.load_eq (o : Out) (m : ChanMode) (v : Int) (period : Nat) : o.load m v period = o.loaded m v period := by
  cases m <;> simp [Out.load, Out.loaded, compareOf, sideOf]

/-- What a check step that begins loads (R86, R160). -/
theorem State.beginStep_outs (q : CheckParams) (p : Pass) (place : Nat) (st : CheckStep) (s : State) (c : ChanId) :
    (s.beginStep q p place st).outs.get c = s.stepOut q (visitChannel q.order place) st c := by
  by_cases h : c = visitChannel q.order place <;> cases st <;>
    simp [State.beginStep, State.stepOut, CheckStep.isPulse, CheckParams.pulseLevel, Out.load_eq, h]

/-- What the AUTO test loads (R74, R112). -/
theorem State.autoTest_outs (s : State) (c : ChanId) : s.autoTest.outs.get c = s.rearmedOut c := by
  unfold State.rearmedOut
  by_cases g : s.rearmable c = true
  · rw [if_pos ((State.rearmable_iff s c).1 g)]
    simp only [State.autoTest, State.clearLatches, State.loadCompare, Bank.get_mapId, g, if_true]
    rw [Out.load_eq]
    simp [Out.loaded, Channel.halt, ActiveSet.stopped]
  · rw [if_neg fun x => g ((State.rearmable_iff s c).2 x)]
    simp [State.autoTest, State.clearLatches, State.loadCompare, g]

/-! ### Boundaries -/

/-- A boundary takes an output record on as the statements say (R77; log 33). -/
theorem Out.resume_eq (o : Out) : o.resume = o.resumed := by
  cases h : o.prior <;> simp [Out.resume, Out.resumed, Out.withShown, Out.shown, h]

/-- What every channel's outputs go on from at a boundary (R77; log 33). -/
theorem State.resumeOuts_outs (s : State) (c : ChanId) : s.resumeOuts.outs.get c = (s.outs.get c).resumed := by
  simp only [State.resumeOuts, Bank.get_mapId, Out.resume_eq]

/-- The Output Stage's work at a boundary makes every channel's pins show its state (R66, R74). -/
theorem State.outputWork_shows (s : State) (c : ChanId) :
    Shows s.outputWork c
      (if s.used c = true then
        (s.outs.get c).loaded (s.chans.get c).mode (s.chans.get c).act.level s.tb.active.period
      else s.outs.get c)
      (s.outputWork.outs.get c) := by
  have h := State.settleOn_shows (fun _ => true) (s.loadCompare s.used) c rfl
  have e : (s.loadCompare s.used).outs.get c =
      if s.used c = true then
        (s.outs.get c).loaded (s.chans.get c).mode (s.chans.get c).act.level s.tb.active.period
      else s.outs.get c := by
    simp only [State.loadCompare, Bank.get_mapId, Out.load_eq]
  rw [e] at h
  exact h

/-- No pattern wants both outputs (R78, R82–R86). -/
theorem State.pattern_apart (s : State) (c : ChanId) (o : Out) (d : Bool) : s.pattern c o ≠ .wants true true d := by
  have hd : ∀ m, drivePattern m o ≠ .wants true true d := by
    intro m
    cases m
    · simp [drivePattern, Pattern.off]
    · simp [drivePattern]
    · cases h : o.ref <;> simp [drivePattern, h]
    · cases h : o.side <;> simp [drivePattern, h, Pattern.off]
  have hb : ∀ m, brakePattern m ≠ .wants true true d := by intro m; simp [brakePattern]
  have ho : Pattern.off ≠ .wants true true d := by simp [Pattern.off]
  unfold State.pattern
  dsimp only
  cases s.ctl.mode
  · exact Pattern.noConfusion
  all_goals
    cases s.driveState c
    case driving => exact hd _
    case ramping => exact hd _
    case braked => exact hb _
    case tripped =>
      cases (s.chans.get c).cfg.safe
      · exact ho
      · exact Pattern.noConfusion
      · exact hb _
    case checking =>
      cases s.check.position with
      | none => exact ho
      | some p =>
        dsimp only
        cases p.step
        case pulsePos => exact hd _
        case pulseNeg => exact hd _
        all_goals simp [checkPattern, Pattern.off]
    all_goals exact ho

/-- The outputs of a channel that has followed the state are apart, whatever they were (R79). -/
theorem State.settledOut_apart (s : State) (c : ChanId) (o : Out) :
    ¬((s.settledOut c o).pinA = .active ∧ (s.settledOut c o).pinB = .active) := by
  have h : ∀ (q : Out) p, (∀ d, p ≠ .wants true true d) → ¬((q.take (s.chans.get c).mode p).pinA = .active
      ∧ (q.take (s.chans.get c).mode p).pinB = .active) := by
    intro q p hp
    cases p with
    | released => simp [Out.take]
    | wants a b d =>
      simp only [Out.take, PinDrive.drop_active]
      rintro ⟨⟨_, ha⟩, _, hb⟩
      subst ha hb
      exact hp d rfl
  exact Out.rise_apart _ _ _ (h _ _ (State.pattern_apart s c _))

end Sys2Proof.Machine
end

