-- ==== Sys2Proof/Tests/Slice0.lean ====
section
/-! SUPPORT. Small tests: which commands are well formed, the CRC, and for every statement of the obligations a
state and operands that meet its hypotheses, at the boundaries of each clause. -/

namespace Sys2Proof.Machine

/-! ### States the tests use -/

/-- A channel of a mode after a reset of everything else. -/
def tChan (m : ChanMode) (dead : Nat) (member : BitVec 4) (role : SenseRole) : Channel :=
  { Channel.reset with mode := m, deadTime := dead, member := member, role := role }

/-- Channel 0 COMPLEMENT under interlock 0, channel 1 DIRECTIONAL with an end stop under interlock 1, channel 2
SINGLE with a capture input; the others UNUSED. -/
def tChans : Bank Channel 16 :=
  .ofFn fun c =>
    match c.val with
    | 0 => tChan .complement 8 1 .none
    | 1 => tChan .directional 4 2 .endStop
    | 2 => tChan .single 0 0 .capture
    | _ => .reset

/-- The part in a mode, with those channels and nothing waiting at the link. -/
def tIn (m : OpMode) : State :=
  { State.reset with
    ctl := { ModeCtl.afterReset .power with mode := m, startCount := 32, layoutOk := true, timebaseOk := true }
    tb := { Timebase.reset with run := if m = .run ∨ m = .check then .running else .stopped }
    chans := tChans
    outs := .fill 16 { Out.reset with pinA := .inactive, pinB := .inactive, offA := 1000, offB := 1000 } }

/-- An active set that drives. -/
def tOn (level : Int) (ramp : Option Ramp) : ActiveSet :=
  { drive := .on, level := level, lo := -10000, hi := 10000, ramp := ramp }

/-- The part in RUN with channel 0 RAMPING, channel 1 DRIVING and channel 2 IDLE. -/
def tDrive : State :=
  { tIn .run with
    chans := (tChans.set 0 { tChan .complement 8 1 .none with act := tOn 5000 (some { target := 0, step := 10 }) }).set 1
      { tChan .directional 4 2 .endStop with act := tOn (-5000) none } }

/-- A state of the Line Sequence Table with one LEVEL posting for channel 1 and a slot that holds always. -/
def tLine : StateRec :=
  { defined := 1, gate := 0x0001, status := 3, dwell := 2, count := 1
    postings := .fill 4 { channel := 1, kind := 0, delay := 2, value := 100, extra := 0 }
    slots := .fill 4 { target := 0, source := 4, index := 0, negate := 1 } }

/-- The part in RUN with the Sequence Unit in a state of its own at line state 0. -/
def tSeq (u : UnitState) : State :=
  { tDrive with seq := { SeqUnit.reset with
      unit := u, table := .fill 10 tLine, home := some 0, current := some 0 } }

/-- The part in CHECK at a step of channel 1, ascending, all three channels, 2 settle and 3 pulse frames. -/
def tParams : CheckParams := { mask := 7, passes := .both, order := .ascending, settle := 2, pulse := 3, level := 5000 }

/-- The part in CHECK at a place and a step. -/
def tCheck (pass : Pass) (place : Nat) (step : CheckStep) (frames : Nat) : State :=
  { tIn .check with check := { CheckEngine.reset with
      running := true, status := .inProgress, params := some tParams
      position := some { pass := pass, place := place, step := step, frames := frames } } }

/-- The part with a link of its own. -/
def tLink (s : State) (f : Link → Link) : State := { s with link := f s.link }

/-- A state with a sample of the S inputs, of the interlocks and of HOME; the condition inputs low. -/
def tLevels (ss : Half) (il : BitVec 4) (home : Level) : Levels := { s := ss, il := il, home := home, c := 0 }

/-- A queue entry. -/
def tEntry (c : ChanId) (sp : Setpoint) (n : Nat) : Entry :=
  { channel := c, setpoint := sp, remaining := n, origin := .host }

/-- The part with entries in its queue. -/
def tQueue (s : State) (es : List Entry) : State := { s with queue := { s.queue with entries := es } }

/-- A statement that a decision finds true. -/
theorem of_dec {p : Prop} (d : Decidable p) (h : @decide p d = true) : p := @of_decide_eq_true p d h

/-! ### Which commands are well formed -/

theorem test_wf_refuses_each_form :
    ([.framingError (.lenAbove 60), .badKind 0x01 0 [], .badKind 0x22 0 [], .badKind 0x30 0 (.replicate 61 0),
      .identify 0 (.replicate 61 0), .status 0 (.replicate 61 0), .restart 0 (.replicate 61 0),
      .layout 0 (.replicate 61 0), .layoutRead 0 (.replicate 61 0), .timebase 0 (.replicate 61 0),
      .start 0 (.replicate 61 0), .stop 0 (.replicate 61 0), .configWrite 0 (.replicate 61 0),
      .configRead 0 (.replicate 61 0), .lock 0 (.replicate 61 0), .notices 0 (.replicate 61 0),
      .post 0 (.replicate 61 0), .withdraw 0 (.replicate 61 0)] : List Instr).all (fun c => !c.wf) = true
    ∧ ([.queryChannel 0 (.replicate 61 0), .queryQueue 0 (.replicate 61 0), .forceBoundary 0 (.replicate 61 0),
      .clearTrips 0 (.replicate 60 0), .clearAccum 0 (.replicate 60 0), .clearOvercapture 0 (.replicate 60 0),
      .clearCounters 0 (.replicate 60 0), .queryCapture 0 (.replicate 61 0), .tableWrite 0 (.replicate 61 0),
      .tableRead 0 (.replicate 61 0), .seqArm 0 (.replicate 61 0), .seqDisarm 0 (.replicate 61 0),
      .seqHome 0 (.replicate 61 0), .trigger 0 (.replicate 61 0), .check 0 (.replicate 61 0),
      .stopCheck 0 (.replicate 61 0), .checkResult 0 (.replicate 61 0)] : List Instr).all (fun c => !c.wf) = true := by
  decide +kernel

theorem test_wf_accepts_the_longest :
    ([.framingError (.lenAbove 61), .framingError .badStop, .badKind 0x30 0 (.replicate 60 0),
      .badKind 0x17 0 [], .post 0 (.replicate 60 0), .clearTrips 0 (.replicate 59 0), .tick, .powerOn] :
        List Instr).all Instr.wf = true := by
  decide +kernel

/-! ### Bytes -/

theorem test_crc_of_the_check_string :
    crcOf [0x31, 0x32, 0x33, 0x34, 0x35, 0x36, 0x37, 0x38, 0x39] = 0x29B1#16 := by decide +kernel

theorem test_no_word_spells_a_command :
    decodeTableWord 8 0x01 = none ∧ (State.reset.withFetchWord 8 0x01) = State.reset := by decide +kernel

theorem test_identify_reply :
    ((exec (.identify 0x21 []) (tIn .setup)) = .next (tLink (tIn .setup) fun l =>
      { l with
        service := some { request := { kind := 0x01, tag := 0x21, body := [] }
                          result := 0, fields := [0xD5, 0x4E, 0x6D, 0x71, 0x01, 16, 32, 10, 46]
                          reply := some { kind := 0x81, tag := 0x21
                                          body := [0, 0x01, 0xD5, 0x4E, 0x6D, 0x71, 0x01, 16, 32, 10, 46] } }
        tx := .sending { kind := 0x81, tag := 0x21
                         body := [0, 0x01, 0xD5, 0x4E, 0x6D, 0x71, 0x01, 16, 32, 10, 46] } .reply })) := by
  refine congrArg Host.Outcome.next (?_ : (tIn .setup).deliver 0x01 0x21 [] = _)
  decide +kernel

theorem test_compare_value_of_a_level :
    compareOf 4000 2000 = 800 ∧ compareOf (-2500) 2000 = 500 ∧ compareOf 10000 2000 = 2000
    ∧ compareOf 1 2000 = 0 := by decide +kernel

/-! ### The queue of commands and the resets -/

theorem test_StepTakesFront_premises :
    (∃ (c : Instr) (cs : List Instr) (s : State), s.pending = c :: cs)
    ∧ ∃ (c : Instr) (s t : State), exec c s = .next t :=
  ⟨⟨.tick, [.frameEnd], { State.reset with pending := [.tick, .frameEnd] }, rfl⟩, .powerOn, State.reset,
    (exec_next _ _)⟩

/-- In STARTING, while STOPPED and while RUNNING, each at the last value of its range. -/
def tIdles : List State :=
  [{ State.reset with sampler := { State.reset.sampler with phase := 14 }, ctl := { State.reset.ctl with startCount := 31 } },
   { State.reset with ctl := { State.reset.ctl with startCount := 32 }, pins := { State.reset.pins with resetAsserted := true } },
   { tIn .run with tb := { (tIn .run).tb with active := { TbSettings.reset with prescale := 1 } } }]

/-- An empty queue at a drive clock that completes a tick, at PRESCALE 0 and above; before a sample, before the
last of STARTING, and with a frame end and a sample due together. -/
def tClocked : List State :=
  [tDrive, { tDrive with tb := { tDrive.tb with divider := 255, active := { TbSettings.reset with prescale := 255 } } },
   { tDrive with sampler := { tDrive.sampler with phase := 15 } },
   { State.reset with
     sampler := { State.reset.sampler with phase := 15 }, ctl := { State.reset.ctl with startCount := 31 } },
   { tDrive with tb := { tDrive.tb with frameEndDue := true }, sampler := { tDrive.sampler with phase := 16 } }]

theorem test_a_tick_can_fall_at_every_prescale :
    (tClocked.getD 0 .reset).tb.divider = (tClocked.getD 0 .reset).tb.active.prescale
    ∧ (tClocked.getD 1 .reset).tb.divider = (tClocked.getD 1 .reset).tb.active.prescale
    ∧ ∀ s ∈ tClocked, s.pending = [] := by decide +kernel

/-- COMPLEMENT channel 0 with dead-time 4 at PRESCALE 4, output A wanted for the whole frame and held back. -/
def tGuard : State :=
  { tDrive with
    tb := { tDrive.tb with active := { prescale := 4, period := 16, rep := 0, align := .edge } }
    chans := tDrive.chans.set 0 { tChan .complement 4 1 .none with act := tOn 10000 none }
    outs := tDrive.outs.set 0 { Out.reset with
      compare := 16, ref := true, wantA := true, pinA := .inactive, pinB := .inactive, offA := 1000 } }

/-- The output rises on the fourth of the five drive clocks of the tick: the fifth finds it ACTIVE (R79, R80). -/
theorem test_expiry_within_a_tick :
    (match exec .tick tGuard with
      | .next t => t.outs.get 0
      | _ => .reset) = { tGuard.outs.get 0 with wtA := 5, offA := 0, offB := 5, pinA := .active } := by
  decide +kernel

theorem test_EmptyQueueIsOneDriveClock_premises :
    ∀ s ∈ tIdles, s.pending = [] ∧ s.settle = s ∧ s.tb.frameEndDue = false ∧ s.sampler.phase < 15
      ∧ (s.ctl.mode = .starting → s.ctl.startCount < 32 ∨ s.pins.resetAsserted = true)
      ∧ (s.tb.run = .running → s.tb.divider < s.tb.active.prescale) := by decide +kernel

/-- The RESTART reply is being sent. -/
def tRestarting : State :=
  tLink (tIn .run) fun l => { l with
    tx := .sending { kind := 0x83, tag := 0, body := [0, 2] } .reply, restarting := true }

theorem test_ResetsGiveEveryUnitItsValues_premises :
    tRestarting.link.tx = .sending { kind := 0x83, tag := 0, body := [0, 2] } .reply
    ∧ tRestarting.link.restarting = true := by decide +kernel

theorem test_ResetClearsAccumulatorsAndSequence_premises :
    (∃ t, exec .powerOn tDrive = .next t) ∧ (∃ t, exec .resetPin tDrive = .next t)
    ∧ tRestarting.link.restarting = true ∧ (∃ f, tRestarting.link.tx = .sending f .reply)
    ∧ ∃ t, exec .frameSent tRestarting = .next t :=
  ⟨exec_next _ _, exec_next _ _, rfl, ⟨_, rfl⟩, exec_next _ _⟩

/-- STARTING is over. -/
def tOver : State := { State.reset with ctl := { State.reset.ctl with startCount := 32 } }

theorem test_StartingEndsInSetup_premises :
    (tIdles.getD 1 .reset).pins.resetAsserted = true ∧ State.reset.pins.resetAsserted = false
    ∧ (tOver.ctl.mode = .starting ∧ tOver.ctl.startCount = 32 ∧ tOver.pins.resetAsserted = false)
    ∧ ¬(State.reset.ctl.startCount = 32) ∧ tOver.used 0 = false := by decide +kernel

/-! ### Samples -/

theorem test_SamplesAreFiltered_premises :
    State.reset.pinEvents (tLevels 0 0xF .high) = []
    ∧ ({ State.reset with home := { State.reset.home with filter := 2 } }).pinEvents (tLevels 0 0xF .low) = [] := by
  decide +kernel

theorem test_SamplesTakeEdges_premises :
    (tDrive.ctl.mode = .run ∧ tDrive.pinEvents (tLevels 2 0xF .high) = [.edge 1 .high]
      ∧ (tDrive.chans.get 1).cfg.edge = .rising ∧ (tDrive.chans.get 1).role = .endStop
      ∧ tDrive.driveState 1 = .driving)
    ∧ (tDrive.pinEvents (tLevels 4 0xF .high) = [.edge 2 .high] ∧ (tDrive.chans.get 2).role = .capture
      ∧ tDrive.driveState 2 = .idle)
    ∧ (tDrive.pinEvents (tLevels 1 0xF .high) = [.edge 0 .high] ∧ (tDrive.chans.get 0).role = .none)
    ∧ ((tCheck .pulse 1 .pulsePos 0).ctl.mode = .check
      ∧ (tCheck .pulse 1 .pulsePos 0).check.params = some tParams
      ∧ (tCheck .pulse 1 .pulsePos 0).pinEvents (tLevels 2 0xF .high) = [.edge 1 .high]
      ∧ (tCheck .static 1 .aOn 0).pinEvents (tLevels 2 0xF .high) = [.edge 1 .high])
    ∧ (∀ s ∈ [tIn .setup, State.reset, { tIn .starting with chans := tChans }],
      (s.ctl.mode = .setup ∨ s.ctl.mode = .starting) ∧ s.pinEvents (tLevels 2 0xF .high) = [.edge 1 .high]) := by
  decide +kernel

/-- An edge at an end stop whose action is BRAKE gives its channel the pattern of BRAKED at once (R67, R81). -/
theorem test_end_stop_brakes :
    (match exec (.sample 2 0xF .high 0)
        { tDrive with chans := tDrive.chans.set 1 { tChan .directional 4 2 .endStop with
          cfg := { (tChans.get 1).cfg with endStop := .brake }, act := tOn (-5000) none } } with
      | .next t => (t.driveState 1, (t.outs.get 1).pinA, (t.outs.get 1).pinB) | _ => (.idle, .released, .released))
    = (.braked, .inactive, .active) := by decide +kernel

/-- An edge on an END_STOP channel in SETUP moves the filtered level alone (R94). -/
theorem test_edge_in_setup :
    (match exec (.sample 2 0xF .high 0) (tIn .setup) with
      | .next t => (t.senses.get 1, t.link, t.seq, t.chans) | _ => (Sense.reset, Link.reset, .reset, tChans))
    = ({ Sense.reset with filtered := .high }, Link.reset, .reset, tChans) := by decide +kernel

/-- Interlock 0's input changes. -/
def tPin (s : State) : List PinEvent := s.pinEvents (tLevels 0 0xE .high)

/-- A CHECK in which interlock 0 has tripped channel 0; channel 1 is tripped by interlock 1, released since and of rearm
mode AUTO. -/
def tRearming : State :=
  { tCheck .static 0 .aOn 0 with
    ils := ((State.reset.ils.set 1 { Interlock.reset with rearm := .auto }).set 0
      { Interlock.reset with filtered := .low })
    trips := (State.reset.trips.set 1 { latch := true, cause := 2 }).set 0 { latch := true, cause := 1 } }

theorem test_ActivationTripsMembers_premises :
    (∀ s ∈ [State.reset, tIn .setup, tDrive, tCheck .static 0 .aOn 0], tPin s = [.interlock 0 .low]
      ∧ isActive { s.ils.get 0 with filtered := .low, run := 0 })
    ∧ MaskOf 1 (isMember tDrive 0) ∧ isMember tDrive 0 0 ∧ ¬isMember tDrive 0 1
    ∧ MaskOf 0 (isMember State.reset 0)
    ∧ (∀ p ∈ [SafePattern.inactive, .float, .brake],
      (({ tDrive with chans := tDrive.chans.set 0 { tChan .complement 8 1 .none with
          cfg := { ChanCfg.reset with safe := p } } }).chans.get 0).cfg.safe = p)
    ∧ isMember { tDrive with chans := tDrive.chans.set 2 { tChan .single 0 1 .none with
          cfg := { ChanCfg.reset with safe := .brake } } } 0 2 := by
  unfold MaskOf; decide +kernel

theorem test_ActivationTripsMembers_premises_in_check :
    (isMember (tCheck .static 0 .aOn 0) 0 0 ∧ (tCheck .static 0 .aOn 0).driveState 0 = .checking)
    ∧ (autoEligible tRearming 1 ∧ ¬autoEligible tRearming 0 ∧ ¬autoEligible tRearming 2)
    ∧ ((tCheck .static 0 .aOn 0).chans.get 2).mode ≠ .unused ∧ (tRearming.trips.get 2).latch = false := by
  decide +kernel

/-- Interlock 0 ACTIVE and its member tripped. -/
def tTripped (s : State) (rearm : Rearm) : State :=
  { s with
    ils := s.ils.set 0 { Interlock.reset with filtered := .low, rearm := rearm }
    trips := s.trips.set 0 { latch := true, cause := 1 } }

theorem test_ReleaseRearmsInSetup_premises :
    (∀ s ∈ [tTripped (tIn .setup) .auto, tTripped tDrive .auto, tTripped (tIn .setup) .manual],
      s.pinEvents (tLevels 0 0xF .high) = [.interlock 0 .high]
      ∧ ¬isActive { s.ils.get 0 with filtered := .high, run := 0 })
    ∧ autoEligible { tTripped (tIn .setup) .auto with ils := State.reset.ils.set 0 { Interlock.reset with rearm := .auto } } 0
    ∧ ¬autoEligible { tTripped (tIn .setup) .manual with ils := State.reset.ils } 0 := by decide +kernel

theorem test_HomePinHoldsAndReleases_premises :
    ((tSeq .running).pinEvents (tLevels 0 0xF .low) = [.home .low] ∧ (tSeq .running).seq.unit = .running
      ∧ (tSeq .running).seq.home = some 0)
    ∧ ((tSeq .disabled).pinEvents (tLevels 0 0xF .low) = [.home .low] ∧ (tSeq .disabled).seq.unit ≠ .running)
    ∧ (∀ u ∈ [UnitState.held, .running],
      ({ tSeq u with home := { State.reset.home with filtered := .low } }).pinEvents (tLevels 0 0xF .high)
        = [.home .high]) := by decide +kernel

/-! ### Boundaries -/

theorem test_FrameEndRaisesBoundary_premises :
    (tIn .setup).tb.run = .stopped ∧ (tIn .run).tb.run = .running ∧ (tIn .run).ctl.mode = .run
    ∧ (tIn .check).tb.run = .running ∧ (tIn .check).ctl.mode = .check := by decide +kernel

theorem test_BoundaryMovesTimebase_premises :
    (∀ n ∈ (tIn .run).link.notices, n.occ.kind ≠ 8) ∧ (tIn .run).tb.rep = 0
    ∧ ({ (tIn .run).tb with rep := 1 }).rep ≠ 0 := by decide +kernel

theorem test_BoundaryCountsDownQueue_premises :
    (tIn .run).seq.unit ≠ .running ∧ (tSeq .held).seq.unit ≠ .running
    ∧ (atEvaluation false (tIn .run)).slotEntry = none ∧ (atEvaluation false (tSeq .running)).slotEntry = some 0
    ∧ (tIn .run).tb.rep = 0
    ∧ (State.placeEntry 0 { tSeq .running with seq := (tSeq .running).seq.inLine 0 }).1 = (1, 0) := by decide +kernel

theorem test_BoundaryMovesChannels_premises :
    (tSeq .running).seq.unit = .running ∧ tDrive.driveState 0 = .ramping ∧ (tDrive.chans.get 0).act.drive = .on
    ∧ autoEligible { tTripped tDrive .auto with ils := State.reset.ils.set 0 { Interlock.reset with rearm := .auto } } 0 := by
  decide +kernel

theorem test_BoundaryAddsAndLoads_premises :
    (tDrive.driveState 0 = .ramping ∧ tDrive.driveState 1 = .driving ∧ tDrive.driveState 2 = .idle)
    ∧ ((tDrive.chans.get 1).mode = .directional ∧ (tDrive.chans.get 3).mode = .unused)
    ∧ (∀ n ∈ tDrive.link.notices, n.occ.kind ≠ 5 ∧ n.occ.kind ≠ 4)
    ∧ MaskOf 0 (fun c => (tDrive.driveState c = .driving ∨ tDrive.driveState c = .ramping)
      ∧ (tDrive.accs.get c).overflows (tDrive.chans.get c).cfg.accMode (tDrive.chans.get c).act.level = true)
    ∧ MaskOf 1 (fun c => (tDrive.driveState c = .driving ∨ tDrive.driveState c = .ramping)
      ∧ ((Bank.fill 16 { Accum.cleared with value := 2147483647 } : Bank Accum 16).get c).overflows
          (tDrive.chans.get c).cfg.accMode (tDrive.chans.get c).act.level = true) := by
  unfold MaskOf; decide +kernel

/-- Channel 0 DRIVING at level `v`, with output A (at reference high) or B (low) ACTIVE for long, and with two entries:
level `x` at the first release boundary, level `y` at the second. -/
def tEmptyFrame (v x y : Int) : State :=
  tQueue { tDrive with
    chans := tDrive.chans.set 0 { tChan .complement 8 1 .none with act := tOn v none }
    outs := tDrive.outs.set 0 { Out.reset with
      compare := v.natAbs / 5, ref := decide (v ≠ 0), wantA := decide (v ≠ 0), wantB := decide (v = 0)
      wtA := if v = 0 then 0 else 1000, wtB := if v = 0 then 1000 else 0
      offA := if v = 0 then 500 else 0, offB := if v = 0 then 0 else 500
      pinA := if v = 0 then .inactive else .active, pinB := if v = 0 then .active else .inactive } }
    [tEntry 0 (.level x) 0, tEntry 0 (.level y) 1]

theorem test_BoundaryAddsAndLoads_two_boundaries :
    (∀ v ∈ [(0 : Int), 5000], ((tEmptyFrame v 100 v).outs.get 0).prior = none
      ∧ ((tEmptyFrame v 100 v).chans.get 0).mode ≠ .unused)
    ∧ ((State.runBoundary false true (tEmptyFrame 0 5000 0)).wants 0 false .none = some (false, true, true)
      ∧ ((tEmptyFrame 0 5000 0).outs.get 0).pinB = .active
      ∧ ((State.runBoundary true true (State.runBoundary false true (tEmptyFrame 0 5000 0))).outs.get 0).wantB = true)
    ∧ ((State.runBoundary false true (tEmptyFrame 5000 0 5000)).wants 0 true .none = some (true, false, true)
      ∧ ((tEmptyFrame 5000 0 5000).outs.get 0).pinA = .active
      ∧ ((State.runBoundary true true (State.runBoundary false true (tEmptyFrame 5000 0 5000))).outs.get 0).wantA
        = true) := by decide +kernel

/-- The compare value 1000 of an empty frame between two frames of compare value 0 is never seen (R77): output B is
ACTIVE after both boundaries, its wanted time whole; where the second boundary keeps the compare value, B leaves. -/
theorem test_empty_frame_is_not_seen :
    (match exec .frameEnd (tEmptyFrame 0 5000 0) with
      | .next t => (match exec (.forceBoundary 1 [0]) t with
        | .next u => ((t.outs.get 0).compare, (u.outs.get 0).compare, (u.outs.get 0).pinB, (u.outs.get 0).wtB, u.tb.bnum)
        | _ => (0, 0, .released, 0, 0))
      | _ => (0, 0, .released, 0, 0)) = (1000, 0, .active, 1000, 2)
    ∧ ((State.runBoundary true true (State.runBoundary false true (tEmptyFrame 0 5000 5000))).outs.get 0).pinB
      = .inactive := by decide +kernel

theorem test_BoundaryEvaluatesSequence_premises :
    (tIn .run).seq.unit = .disabled ∧ (tSeq .held).seq.unit = .held ∧ (tSeq .running).seq.unit = .running
    ∧ (tSeq .running).seq.current = some 0 ∧ (atEvaluation true (tSeq .running)).winner 0 = some 0
    ∧ (atEvaluation false
        { tSeq .running with seq := { (tSeq .running).seq with table := .fill 10 .reset } }).winner 0 = none := by
  decide +kernel

/-- A Sequence Unit in line state 0 whose own slots and any-state slots are given. -/
def tSlots (own : Fin 4 → Slot) (other : Fin 6 → Slot) : State :=
  { tSeq .running with seq := { (tSeq .running).seq with
      table := (tSeq .running).seq.table.set 0 { tLine with slots := .ofFn own }, anySlots := .ofFn other } }

/-- A slot to a line state that holds always. -/
def tAlways (l : Byte) : Slot := { target := l, source := 10, index := 0, negate := 0 }

/-- Deciding whether a source is true. -/
@[reducible] def decSource (s : State) (k i : Nat) : Decidable (sourceHolds s k i) := by
  unfold sourceHolds
  split <;> infer_instance

/-- Deciding whether a slot holds. -/
@[reducible] def decSlotTrue (s : State) (t : Slot) : Decidable (slotTrue s t) := by
  unfold slotTrue; letI := decSource s t.source.toNat t.index.toNat; infer_instance

theorem test_FirstSlotThatHoldsWins_premises :
    (let s := tSlots (fun k => if k.val = 3 then tAlways 9 else .empty) (fun _ => .empty);
      slotTrue s ((s.seq.table.get 0).slots.get 3) ∧ (∀ j < (3 : Fin 4), ¬slotTrue s ((s.seq.table.get 0).slots.get j))
      ∧ ((s.seq.table.get 0).slots.get 3).target.toNat = (9 : LineId).val)
    ∧ (let s := tSlots (fun _ => .empty) (fun k => if k.val = 5 then tAlways 9 else tAlways 0);
      (∀ j, ¬slotTrue s ((s.seq.table.get 0).slots.get j))
      ∧ (slotTrue s (s.seq.anySlots.get 5) ∧ (s.seq.anySlots.get 5).target.toNat ≠ (0 : LineId).val)
      ∧ ∀ j < (5 : Fin 6), ¬(slotTrue s (s.seq.anySlots.get j) ∧ (s.seq.anySlots.get j).target.toNat ≠ (0 : LineId).val))
    ∧ (let s := tSlots (fun _ => .empty) (fun _ => tAlways 0);
      (∀ j, ¬slotTrue s ((s.seq.table.get 0).slots.get j))
      ∧ ∀ j, ¬(slotTrue s (s.seq.anySlots.get j) ∧ (s.seq.anySlots.get j).target.toNat ≠ (0 : LineId).val)) :=
  of_dec (letI := decSlotTrue; inferInstance) (by decide +kernel)

/-- The entry of line state 1 out of a state with every channel admitted. -/
def tEntered : (Nat × Nat) × State := (tSeq .running).enterOutside 1 .arm

/-- The queue full of entries for channel 2. -/
def tFull : State :=
  tQueue tDrive ((List.range 32).map fun n => tEntry 2 (.level 0) n)

theorem test_EnteringLineState_premises :
    ((tSeq .running).checkEntryPosting { channel := 1, kind := 0, delay := 2, value := 100, extra := 0 }
      = .ok { channel := 1, setpoint := .level 100, delay := 2 })
    ∧ ((tSeq .running).latched 1 = false ∧ (tTripped (tSeq .running) .auto).latched 0 = true)
    ∧ (tFull.queue.entries.length = 32 ∧ (∃ e ∈ tFull.queue.entries, e.channel = 2 ∧ e.remaining = 31))
    ∧ (tSeq .running).ctl.mode = .run
    ∧ ((tSeq .running).seq.gate.getLsbD 0 = ((tSeq .running).seq.table.get 1).gate.getLsbD 0)
    ∧ ((tSeq .running).seq.gate.getLsbD 1 = true ∧ ((tSeq .running).seq.table.get 1).gate.getLsbD 1 = false
      ∧ ((tSeq .running).chans.get 1).mode ≠ .unused ∧ ((tSeq .running).trips.get 1).latch = false)
    ∧ tEntered.2.driveState 1 = .blocked
    ∧ (let s : State := { tSeq .running with seq := { (tSeq .running).seq with gate := 0 } }
      s.seq.gate.getLsbD 0 = false ∧ (s.seq.table.get 1).gate.getLsbD 0 = true
      ∧ (s.chans.get 0).mode ≠ .unused ∧ (s.trips.get 0).latch = false
      ∧ (s.enterOutside 1 .seqHome).2.driveState 0 = .ramping) := by decide +kernel

/-! ### Check steps, compare matches, expiries, ticks -/

theorem test_CheckBoundaryMovesOn_premises :
    (∀ s ∈ [tCheck .static 1 .aOn 0, tCheck .static 1 .aOn 1, tCheck .static 1 .bOn 1, tCheck .pulse 2 .pulsePos 2],
      s.ctl.mode = .check ∧ s.tb.run = .running ∧ s.check.params = some tParams)
    ∧ (0 + 1 < tParams.settle ∧ tParams.settle ≤ 1 + 1 ∧ tParams.pulse ≤ 2 + 1)
    ∧ stepAfter .aOn (stepsOf .static .directional) = some .bOn
    ∧ (stepAfter .bOn (stepsOf .static .directional) = none
      ∧ tParams.visitsAfter { pass := .static, place := 1, step := .bOn, frames := 1 }
        = (.static, 2) :: [(.pulse, 0), (.pulse, 1), (.pulse, 2)]
      ∧ ((tIn .check).trips.get (visitChannel .ascending 2)).latch = false
      ∧ stepsOf .static ((tIn .check).chans.get (visitChannel .ascending 2)).mode = .idle :: [.aOn])
    ∧ (stepAfter .pulsePos (stepsOf .pulse .single) = none
      ∧ tParams.visitsAfter { pass := .pulse, place := 2, step := .pulsePos, frames := 2 } = [])
    ∧ (tParams.visitsAfter { pass := .static, place := 1, step := .bOn, frames := 1 }
        = [(.static, 2)] ++ (.pulse, 0) :: [(.pulse, 1), (.pulse, 2)]
      ∧ (∀ w ∈ [(Pass.static, 2)],
        (({ tIn .check with trips := State.reset.trips.set 2 { latch := true, cause := 1 } }).trips.get
          (visitChannel .ascending w.2)).latch = true)
      ∧ stepsOf .pulse ((tIn .check).chans.get (visitChannel .ascending 0)).mode = .pulsePos :: [])
    ∧ stepAfter .pulsePos (stepsOf .pulse ((tIn .check).chans.get 1).mode) = some .pulseNeg := by
  decide +kernel

/-- A pulse level of 5000 loads half of PERIOD 2000: on side B for the PULSE_NEG of a DIRECTIONAL channel, on no side for
the PULSE_POS of a COMPLEMENT one, which begins the PULSE pass (R86, R160). -/
theorem test_pulse_steps_load_their_level :
    (match exec .frameEnd (tCheck .pulse 1 .pulsePos 2) with
      | .next t => ((t.outs.get 1).compare, (t.outs.get 1).side, (t.outs.get 1).wantB, (t.outs.get 0).compare)
      | _ => (0, .none, false, 0)) = (1000, .b, true, 0)
    ∧ (match exec .frameEnd (tCheck .static 2 .aOn 1) with
      | .next t => ((t.outs.get 0).compare, (t.outs.get 0).side, (t.outs.get 0).wantA, (t.outs.get 1).compare)
      | _ => (0, .none, false, 0)) = (1000, .none, true, 0) := by
  decide +kernel

theorem test_CheckVisitsAndSteps_premises :
    (stepsOf .static .directional = [.idle, .aOn] ++ .bOn :: [] ∧ stepsOf .pulse .directional = [] ++ .pulsePos :: [.pulseNeg])
    ∧ ({ tParams with mask := 0x0102, order := .scrambled, passes := .static }).visits
        = [(Pass.static, 1)] ++ (Pass.static, 6) :: []
    ∧ ({ tParams with mask := 0xFFFF, order := .scrambled, passes := .both }).visits
        = (List.range 16).map (fun k => (Pass.static, k)) ++ (Pass.pulse, 0) :: (List.range 15).map (fun k => (Pass.pulse, k + 1)) := by
  decide +kernel

theorem test_CompareMatchMovesReference_premises :
    (tIn .setup).tb.run = .stopped ∧ tDrive.tb.run = .running ∧ tDrive.tb.frameEndDue = false
    ∧ ({ tDrive.tb with frameEndDue := true }).frameEndDue = true
    ∧ (tDrive.ctl.mode = .run ∧ tDrive.driveState 0 = .ramping ∧ (tDrive.chans.get 0).mode = .complement)
    ∧ (tDrive.driveState 1 = .driving ∧ (tDrive.chans.get 1).mode = .directional)
    ∧ ({ tDrive with chans := tDrive.chans.set 2 { tChan .single 0 0 .none with act := tOn 1 none } }).driveState 2
        = .driving
    ∧ ((tCheck .pulse 1 .pulseNeg 1).driveState 1 = .checking ∧ (tCheck .pulse 1 .pulseNeg 1).tb.run = .running
      ∧ ∃ p, (tCheck .pulse 1 .pulseNeg 1).check.position = some p ∧ (p.step = .pulsePos ∨ p.step = .pulseNeg)) :=
  ⟨by decide +kernel, by decide +kernel, by decide +kernel, by decide +kernel, by decide +kernel, by decide +kernel,
    by decide +kernel, by decide +kernel, by decide +kernel, _, rfl, .inr rfl⟩

/-- Channel 0 with output A wanted, at given off-time of B and wanted time of A. -/
def tWanted (offB wtA : Nat) : State :=
  { tDrive with outs := tDrive.outs.set 0 { Out.reset with
      compare := 1000, ref := true, wantA := true, wtA := wtA, pinA := .inactive, pinB := .inactive, offB := offB } }

/-- Channel 0 with output B wanted, at given off-time of A and wanted time of B. -/
def tWantedB (offA wtB : Nat) : State :=
  { tDrive with outs := tDrive.outs.set 0 { Out.reset with
      wantB := true, wtB := wtB, pinA := .inactive, pinB := .inactive, offA := offA } }

/-- A compare match raises a wanted output of a COMPLEMENT channel at off-time 8 and wanted time 8 of dead-time 8, at
neither below 8, and one that does not want it lowers it (R78 to R80). -/
theorem test_compare_match_at_the_guards :
    ([tWanted 8 8, tWanted 7 8, tWanted 8 7, tWantedB 8 8, tWantedB 7 8, tWantedB 8 7].map fun s =>
      match exec (.compareMatch 0) s with
      | .next t => ((t.outs.get 0).pinA, (t.outs.get 0).pinB)
      | _ => (.released, .released))
    = [(.active, .inactive), (.inactive, .inactive), (.inactive, .inactive), (.inactive, .active),
      (.inactive, .inactive), (.inactive, .inactive)] := by decide +kernel

theorem test_ExpiriesRaiseOutputs_premises :
    (∀ s ∈ [tWanted 8 8, tWanted 7 8, tWanted 8 7, tWantedB 8 8, tWantedB 7 8],
      s.tb.frameEndDue = false ∧ (s.outs.get 0).refresh s.tb = s.outs.get 0
      ∧ (s.outs.get 0).take (s.chans.get 0).mode (s.pattern 0 (s.outs.get 0)) = s.outs.get 0
      ∧ (s.pattern 0 (s.outs.get 0)).delayed = true ∧ (s.chans.get 0).deadTime = 8)
    ∧ ((tWanted 8 8).outs.get 0).wantA = true ∧ ((tWanted 8 8).outs.get 0).pinA ≠ .active
    ∧ ((tWantedB 8 8).outs.get 0).wantB = true ∧ ((tWantedB 8 8).outs.get 0).pinB ≠ .active
    ∧ (tDrive.chans.get 1).mode ≠ .complement := by decide +kernel

theorem test_TickCountsTheFrame_premises :
    (tIn .setup).tb.run = .stopped ∧ (tIn .run).tb.run = .running ∧ (tIn .run).tb.frameEndDue = false
    ∧ ((tIn .check).ctl.mode = .check
      ∧ 15 + ((tIn .check).tb.active.prescale - (tIn .check).tb.divider) < 16) := by decide +kernel

/-! ### The link -/

/-- The frame of STATUS with TAG 5, at the line. -/
def tFrame : Frame := { kind := 0x02, tag := 5, body := [] }

/-- The receiver with the bytes of the frame after SYNC but its last CRC byte. -/
def tNearly : State := tLink (tIn .setup) fun l => { l with rx := .inFrame (tFrame.bytes.tail.dropLast) }

theorem test_ReceiverTakesBytes_premises :
    State.reset.ctl.mode = .starting ∧ (tIn .setup).ctl.mode ≠ .starting ∧ (tIn .setup).link.rx = .hunting
    ∧ (tLink (tIn .setup) fun l => { l with rx := .inFrame [] }).link.rx = .inFrame []
    ∧ (60 < (61 : Byte).toNat ∧ ¬60 < (60 : Byte).toNat)
    ∧ tFrame.bytes.tail.dropLast = 0 :: [2, 5, tFrame.bytes.getD 4 0]
    ∧ tNearly.link.rx = .inFrame (0 :: [2, 5, tFrame.bytes.getD 4 0])
    ∧ ([2, 5, tFrame.bytes.getD 4 0] : List Byte).length + 2 = (0 : Byte).toNat + 5
    ∧ crcOf ((0 :: [2, 5, tFrame.bytes.getD 4 0]).take 3)
        = halfAt (0 :: [2, 5, tFrame.bytes.getD 4 0] ++ [tFrame.bytes.getD 5 0]) 3
    ∧ crcOf ((0 :: [2, 5, tFrame.bytes.getD 4 0]).take 3)
        ≠ halfAt (0 :: [2, 5, tFrame.bytes.getD 4 0] ++ [tFrame.bytes.getD 5 0 + 1]) 3 := by decide +kernel

/-- A notice being sent, behind which the reply to a CLEAR (TRIPS) that has cleared channel 0 is not built yet. -/
def tUnbuilt : State :=
  tLink (tIn .run) fun l => { l with
    service := some { request := { kind := 0x15, tag := 3, body := [0, 1, 0] }
                      result := 0, fields := [1, 0, 0, 0], reply := none }
    overrun := true, tx := .sending tFrame .notice }

/-- A CLEAR (TRIPS) taken first and an activation then, before the reply is begun: it reports channel 0 cleared, and its
STATUS byte shows the trip, and OVERRUN, which is clear from then on (R115, R182). -/
theorem test_a_trip_before_the_reply_is_sent :
    (∃ a, a = State.answer { kind := 0x15, tag := 3, body := [0, 1, 0] } { tTripped (tIn .run) .manual with
        ils := State.reset.ils, link := { tUnbuilt.link with service := none } }
      ∧ a.link = tUnbuilt.link ∧ (a.trips.get 0).latch = false)
    ∧ (match exec .frameSent (tUnbuilt.sample (tLevels 0 0xE .high)) with
      | .next t => (t.link.tx, (t.trips.get 0).latch, t.link.overrun)
      | _ => (.idle, false, true))
      = (.sending { kind := 0x95, tag := 3, body := [0, 0x5A, 1, 0, 0, 0] } .reply, true, false) :=
  ⟨⟨_, rfl, by decide +kernel⟩, by decide +kernel⟩

/-- A request in service with its reply being sent. -/
def tSending (s : State) : State :=
  tLink s fun l => { l with
    service := some { request := tFrame, result := 0, fields := [], reply := some tFrame }, tx := .sending tFrame .reply }

theorem test_FrameSentChoosesNext_premises :
    (tIn .run).link.tx = .idle
    ∧ (tLink (tIn .run) fun l => { l with tx := .sending tFrame .notice }).link.tx = .sending tFrame .notice
    ∧ (tUnbuilt.link.tx = .sending tFrame .notice ∧ tUnbuilt.link.service.isSome = true)
    ∧ ((tSending (tIn .run)).link.tx = .sending tFrame .reply ∧ (tSending (tIn .run)).link.restarting = false
      ∧ (tSending (tIn .run)).link.waiting = [])
    ∧ (tLink (tSending (tIn .run)) fun l => { l with waiting := [tFrame] }).link.waiting = tFrame :: []
    ∧ (tLink (tSending (tIn .run)) fun l => { l with notices := [{ occ := .flow true, count := 1 }] }).link.notices
        = { occ := .flow true, count := 1 } :: []
    ∧ (tIn .run).link.notices = [] := by decide +kernel

theorem test_RequestsWaitOrAreLost_premises :
    requestFrame (.status 5 []) = some tFrame ∧ State.reset.ctl.mode = .starting
    ∧ ((tSending (tIn .run)).ctl.mode ≠ .starting ∧ (tSending (tIn .run)).link.service ≠ none)
    ∧ (tRestarting.ctl.mode ≠ .starting ∧ tRestarting.link.restarting = true)
    ∧ (tLink (tSending (tIn .run)) fun l => { l with waiting := .replicate 3 tFrame }).link.waiting.length < 4
    ∧ 4 ≤ (tLink (tSending (tIn .run)) fun l => { l with waiting := .replicate 4 tFrame }).link.waiting.length
    ∧ (tIn .run).ready = true := by decide +kernel

theorem test_OccurrencesMergeByKind_premises :
    Occurrence.kind (.ready .power 0) = 0
    ∧ (Occurrence.kind (.channelEvent 1) ≠ 0
      ∧ (tIn .run).link.mask.getLsbD (Occurrence.kind (.channelEvent 1)) = false)
    ∧ ((tIn .run).link.mask.getLsbD (Occurrence.kind (.flow true)) = true
      ∧ (∀ n ∈ (tIn .run).link.notices, n.occ.kind ≠ Occurrence.kind (.flow true)))
    ∧ ∃ n ∈ (((tIn .run).link.offer (.flow true)).notices), n.occ.kind = Occurrence.kind (.flow false) := by
  decide +kernel

/-! ### The decoder and its requests -/

theorem test_ready_in_every_mode :
    ∀ m ∈ [OpMode.setup, .run, .check], (tIn m).ready = true ∧ (tIn m).ctl.mode ≠ .starting := by decide +kernel

theorem test_DecoderRefusesInOrder_premises :
    (requestFrame (.badKind 0x80 1 []) = some { kind := 0x80, tag := 1, body := [] } ∧ rowOf 0x80 = none)
    ∧ (∃ r, rowOf 0x10 = some r ∧ ¬r.lengthOk (.replicate 49 0) ∧ r.lengthOk (.replicate 48 0)
      ∧ ¬r.modeOk .setup ∧ r.modeOk .run)
    ∧ (∃ r, rowOf 0x07 = some r ∧ r.lengthOk [2, 1] ∧ r.modeOk .setup
      ∧ ¬r.orderOk { (tIn .setup).ctl with timebaseOk := false } ∧ r.orderOk (tIn .setup).ctl)
    ∧ ∃ r, rowOf 0x18 = some r ∧ r.lengthOk (1 :: .replicate 24 0) ∧ r.modeOk .run ∧ r.orderOk (tIn .run).ctl
      ∧ r.locked { (tIn .run).ctl with writeLockConfig := true } := by
  refine ⟨by decide +kernel, ⟨_, rfl, ?_⟩, ⟨_, rfl, ?_⟩, ⟨_, rfl, ?_⟩⟩ <;>
    (unfold RequestRow.lengthOk RequestRow.modeOk; first | unfold RequestRow.orderOk | skip) <;>
    (first | unfold RequestRow.locked | skip) <;> decide +kernel

theorem test_IdentifyAndStatusReport_premises :
    MaskOf 1 (fun c => ((tTripped (tIn .setup) .auto).trips.get c).latch = true)
    ∧ (∀ i : IlId, (1 : Byte).getLsbD i.val = true ↔ isActive ((tTripped (tIn .setup) .auto).ils.get i))
    ∧ (1 : Byte).toNat < 16 ∧ (tTripped (tIn .setup) .auto).ready = true := by
  unfold MaskOf; decide +kernel

theorem test_LayoutReadReturnsLayout_premises :
    ∀ s ∈ [tIn .setup, { tIn .setup with
        chans := State.reset.chans, ctl := { (tIn .setup).ctl with layoutOk := false } }],
      s.ready = true ∧ s.ctl.readLock = false := by decide +kernel

theorem test_ReadingRequestsChangeNothing_premises :
    (tIn .run).ready = true ∧ (tIn .run).ctl.readLock = false
    ∧ 16 ≤ (16 : Byte).toNat ∧ (15 : Byte).toNat = (15 : ChanId).val ∧ (9 : Byte).toNat = (9 : LineId).val
    ∧ 10 ≤ (10 : Byte).toNat ∧ 31 < (32 : Byte).toNat ∧ (31 : Byte).toNat ≤ 31 := by decide +kernel

theorem test_failure_record_bytes :
    Failure.bytes { pass := .pulse, channel := 15, step := .skipped, expected := 0, observed := 0, index := 65535 }
      = [0xDF, 0, 0, 0xFF, 0xFF]
    ∧ Failure.bytes { pass := .static, channel := 3, step := .step .bOn, expected := 1, observed := 0, index := 258 }
      = [0x23, 1, 0, 2, 1] := by decide +kernel

theorem test_QueriesReportAndClear_premises :
    ((15 : Byte).toNat = (15 : ChanId).val ∧ 16 ≤ (16 : Byte).toNat ∧ (1 : Byte).toNat ≤ 1
      ∧ 1 < (2 : Byte).toNat)
    ∧ (let es := [tEntry 0 (.level 5) 1, tEntry 0 (.drive .on) 4]
      let s := tQueue tDrive [tEntry 0 (.drive .on) 4, tEntry 1 (.level 2) 0, tEntry 0 (.level 5) 1]
      es.Pairwise (fun e f => e.remaining ≤ f.remaining)
      ∧ ∀ n, es.filter (fun e => decide (e.remaining = n)) =
        s.queue.entries.filter fun e => decide (e.channel = 0 ∧ e.remaining = n)) := by
  refine ⟨by decide +kernel, by decide +kernel, fun n => ?_⟩
  by_cases h1 : 1 = n
  · subst h1; decide +kernel
  · by_cases h4 : 4 = n
    · subst h4; decide +kernel
    · simp [tQueue, tEntry, h1, h4]

/-! ### Failing checks -/

/-- Deciding whether a check of R22 fails. -/
@[reducible] def decRecordFails (s : State) (r : PostRec) (n : Nat) : Decidable (recordFails s r n) := by
  unfold recordFails; dsimp only; split <;> infer_instance

/-- Deciding whether a field of R48 fails. -/
@[reducible] def decConfigFails (b : List Byte) (n : Nat) : Decidable (configFails b n) := by
  unfold configFails; split <;> infer_instance

/-- Deciding whether a check of R9 fails. -/
@[reducible] def decTimebaseFails (s : State) (b : List Byte) (n : Nat) : Decidable (timebaseFails s b n) := by
  unfold timebaseFails; split <;> infer_instance

/-- Deciding whether a LAYOUT record fails. -/
@[reducible] def decLayoutFails (b : List Byte) (n : Nat) : Decidable (layoutFails b n) := by
  unfold layoutFails; dsimp only; split
  · infer_instance
  · split <;> infer_instance

/-- Deciding whether a check of R136 fails. -/
@[reducible] def decTableFails (b : List Byte) (n k : Nat) : Decidable (tableFails b n k) := by
  unfold tableFails; dsimp only; split <;> infer_instance

/-- Deciding whether a check of R156 fails. -/
@[reducible] def decCheckFails (s : State) (b : List Byte) (n k : Nat) : Decidable (checkFails s b n k) := by
  unfold checkFails; split <;> infer_instance

/-- The LAYOUT body with the given first records, the rest of the channels UNUSED, the interlocks ACTIVE_LOW. -/
def tLayout (first : List Byte) (rest : List Byte) : List Byte :=
  first ++ .replicate (32 - first.length) 0 ++ rest ++ .replicate (13 - rest.length) 0

/-- COMPLEMENT, DIRECTIONAL with the longest dead-time, SINGLE, then UNUSED. -/
def tGoodLayout : List Byte := tLayout [0x06, 2, 0x8B, 250, 0x41, 0] [1, 15, 1]

theorem test_LayoutIsTakenWhole_premises :
    ((tIn .setup).ready = true ∧ (tIn .setup).ctl.mode = .setup ∧ (tIn .setup).ctl.writeLockAll = false
      ∧ tGoodLayout.length = 45 ∧ (tIn .setup).queue.entries = [] ∧ (tIn .setup).queue.hold = false)
    ∧ (∀ n, ¬layoutFails tGoodLayout n)
    ∧ (∀ b ∈ [(tLayout [0xC1] [], 0), (tLayout [2, 251] [], 0), (tLayout [1, 1] [], 0), (tLayout [4] [], 0),
        (tLayout (.replicate 30 0 ++ [0x40]) [], 15), (tLayout [] [2], 16), (tLayout [] (.replicate 10 0 ++ [16]), 19),
        (tLayout [] (.replicate 12 0 ++ [16]), 20)],
      b.1.length = 45 ∧ layoutFails b.1 b.2 ∧ ∀ m < b.2, ¬layoutFails b.1 m) := by
  refine ⟨of_dec (letI := decLayoutFails; inferInstance) (by decide +kernel), fun n => ?_, of_dec (letI := decLayoutFails; inferInstance) (by decide +kernel)⟩
  by_cases h : n < 21
  · exact (show ∀ n < 21, ¬layoutFails tGoodLayout n from of_dec (letI := decLayoutFails; inferInstance) (by decide +kernel)) n h
  · have h1 : ¬n < 16 := by omega
    have h2 : ¬n < 20 := by omega
    simp only [layoutFails, if_neg h1, if_neg h2]
    omega

theorem test_TimebaseIsSetOrStaged_premises :
    (∀ s ∈ [tIn .setup, tIn .run], s.ready = true ∧ s.ctl.writeLockAll = false
      ∧ (s.ctl.mode = .setup ∧ s.ctl.layoutOk = true ∨ s.ctl.mode = .run)
      ∧ (∀ b ∈ [([0, 15, 0, 0, 0], 1), ([0, 16, 0, 128, 0], 2), ([0, 16, 0, 127, 2], 3), ([0, 31, 0, 0, 0], 5)],
        timebaseFails s b.1 b.2 ∧ ∀ m < b.2, ¬timebaseFails s b.1 m))
    ∧ (timebaseFails (tIn .run) [0, 32, 0, 127, 1] 4 ∧ ∀ m < 4, ¬timebaseFails (tIn .run) [0, 32, 0, 127, 1] m)
    ∧ ∀ s ∈ [tIn .setup, tIn .run], ∀ n, ¬timebaseFails s [0, 32, 0, 127, 0] n := by
  refine ⟨of_dec (letI := decTimebaseFails; inferInstance) (by decide +kernel), of_dec (letI := decTimebaseFails; inferInstance) (by decide +kernel), fun s hs n => ?_⟩
  by_cases h : n < 6
  · exact (show ∀ s ∈ [tIn .setup, tIn .run], ∀ n < 6, ¬timebaseFails s [0, 32, 0, 127, 0] n from of_dec (letI := decTimebaseFails; inferInstance) (by decide +kernel)) s hs n h
  · unfold timebaseFails; split <;> first | omega | simp

theorem test_StartBeginsTheRun_premises :
    (tIn .setup).ready = true ∧ (tIn .setup).ctl.mode = .setup ∧ (tIn .setup).ctl.layoutOk = true
    ∧ (tIn .setup).ctl.timebaseOk = true
    ∧ (2 ≤ (2 : Byte).toNat ∧ (1 : Byte).toNat < (2 : Byte).toNat)
    ∧ ((32 : Byte).toNat ≤ 32 ∧ (31 : Byte).toNat < (32 : Byte).toNat)
    ∧ ¬2 ≤ (1 : Byte).toNat ∧ ¬(33 : Byte).toNat ≤ 32 ∧ ¬(2 : Byte).toNat < (2 : Byte).toNat := by decide +kernel

theorem test_StopEndsTheRun_premises :
    tDrive.ready = true ∧ tDrive.ctl.mode = .run ∧ (tDrive.chans.get 0).mode ≠ .unused
    ∧ (tDrive.trips.get 0).latch = false ∧ (tDrive.chans.get 3).mode = .unused := by decide +kernel

/-- A CONFIG_WRITE body for channel 15 with one field replaced. -/
def tConfig (i : Nat) (b : Byte) : List Byte :=
  ([15, 1, 0, 2, 2, 15, 1, 2] ++ [0, 0, 0, 0x80] ++ [0xF0, 0xD8] ++ [0x10, 0x27] ++ [1, 0, 1] : List Byte).set i b

theorem test_ConfigWriteActiveOrPending_premises :
    (∀ s ∈ [tIn .setup, tIn .run], s.ready = true ∧ (s.ctl.mode = .setup ∨ s.ctl.mode = .run)
      ∧ s.ctl.writeLockConfig = false ∧ s.ctl.writeLockAll = false)
    ∧ (∀ b ∈ [(0, 16, 1), (1, 2, 2), (2, 2, 2), (3, 3, 3), (4, 3, 4), (5, 16, 5), (6, 2, 6), (7, 3, 7), (12, 0xEF, 8),
        (14, 0x11, 9), (15, 0xFF, 9), (16, 2, 10), (18, 2, 10)],
      (tConfig b.1 b.2.1).length = 19 ∧ configFails (tConfig b.1 b.2.1) b.2.2
      ∧ ∀ m < b.2.2, ¬configFails (tConfig b.1 b.2.1) m)
    ∧ ((byteAt (tConfig 0 15) 0).toNat = (15 : ChanId).val ∧ (byteAt (tConfig 0 0) 0).toNat = (0 : ChanId).val)
    ∧ (((tTripped (tIn .setup) .manual).chans.get 0).mode ≠ .unused
      ∧ ((tTripped (tIn .setup) .manual).trips.get 0).latch = true)
    ∧ ∀ b ∈ [tConfig 0 15, tConfig 0 0, (tConfig 0 0).set 3 0, (tConfig 0 0).set 3 1], ∀ n, ¬configFails b n := by
  refine ⟨of_dec (letI := decConfigFails; inferInstance) (by decide +kernel), of_dec (letI := decConfigFails; inferInstance) (by decide +kernel), by decide +kernel, by decide +kernel, fun b hb n => ?_⟩
  by_cases h : n < 11
  · exact (show ∀ b ∈ [tConfig 0 15, tConfig 0 0, (tConfig 0 0).set 3 0, (tConfig 0 0).set 3 1], ∀ n < 11,
      ¬configFails b n from of_dec (letI := decConfigFails; inferInstance) (by decide +kernel)) b hb n h
  · unfold configFails; dsimp only; split <;> first | omega | simp

/-- A CONFIG_WRITE in SETUP that changes a tripped channel's safe pattern shows at its pins at once (R85). -/
theorem test_safe_pattern_changes_at_once :
    (match exec (.configWrite 0 ((tConfig 0 0).set 3 1)) (tTripped (tIn .setup) .manual) with
      | .next t => ((t.outs.get 0).pinA, (t.outs.get 0).pinB) | _ => (.active, .active)) = (.released, .released)
    ∧ (match exec (.configWrite 0 (tConfig 0 0)) (tTripped (tIn .setup) .manual) with
      | .next t => ((t.outs.get 0).pinA, (t.outs.get 0).pinB) | _ => (.active, .active)) = (.inactive, .active) := by
  decide +kernel

theorem test_LocksNoticesAndClears_premises :
    (∀ s ∈ [tIn .setup, tIn .run], s.ready = true ∧ (s.ctl.mode = .setup ∨ s.ctl.mode = .run)
      ∧ s.ctl.writeLockAll = false)
    ∧ 8 ≤ (8 : Byte).toNat ∧ (7 : Byte).toNat < 8
    ∧ (∃ k : Fin 16, (k.val = 0 ∨ 9 ≤ k.val) ∧ ((0 : Byte) ++ (1 : Byte)).getLsbD k.val = true)
    ∧ (∃ k : Fin 16, (k.val = 0 ∨ 9 ≤ k.val) ∧ ((2 : Byte) ++ (0 : Byte)).getLsbD k.val = true)
    ∧ ¬(∃ k : Fin 16, (k.val = 0 ∨ 9 ≤ k.val) ∧ ((1 : Byte) ++ (0xFE : Byte)).getLsbD k.val = true) := by
  decide +kernel

/-- A posting record with its channel, kind, delay, value and extra. -/
def tRec (c k : Byte) (d v x : Half) : List Byte := [c, k] ++ halfBytes d ++ halfBytes v ++ halfBytes x

/-- The part in RUN with channel 0 tripped. -/
def tRun : State := tTripped (tIn .run) .manual

/-- Records that fail each check of R22 just past its bound, with the check's number. -/
def tBadRecords : List (List Byte × Nat) :=
  [(tRec 16 0 0 0 0, 1), (tRec 3 0 0 0 0, 1), (tRec 0 4 0 0 0, 2), (tRec 1 4 0 0 0, 3), (tRec 1 0 4096 0 0, 4),
   (tRec 1 0 4095 10001 0, 5), (tRec 1 1 0 0xD8EF 1, 5), (tRec 2 0 0 0xFFFF 0, 6), (tRec 1 1 0 10000 0, 7),
   (tRec 1 1 0 10000 10001, 7), (tRec 2 2 0 3 0, 8), (tRec 1 3 0 0xD8EF 0, 9), (tRec 1 3 0 1 0, 9),
   (tRec 1 3 0 0 0xFFFF, 9), (tRec 1 3 0 0 10001, 9), (tRec 2 3 0 0xFFFF 0, 10)]

/-- A batch of six records that pass every check, at the bounds. -/
def tGoodBatch : List Byte :=
  tRec 1 0 4095 10000 0 ++ tRec 1 1 0 0xD8F0 10000 ++ tRec 2 2 0 2 0xFFFF ++ tRec 1 3 1 0xD8F0 10000
  ++ tRec 2 3 0 0 0 ++ tRec 2 1 0 0 1

theorem test_PostChecksRecordsInOrder_premises :
    (tRun.ready = true ∧ tRun.ctl.mode = .run)
    ∧ (∀ b ∈ tBadRecords, b.1.length % 8 = 0 ∧ 8 ≤ b.1.length ∧ b.1.length ≤ 48
      ∧ (postRecords b.1)[0]? = some (postRecAt b.1 0) ∧ recordFails tRun (postRecAt b.1 0) b.2
      ∧ ∀ m < b.2, ¬recordFails tRun (postRecAt b.1 0) m)
    ∧ tGoodBatch.length = 48 := by
  exact of_dec (letI := decRecordFails; inferInstance) (by decide +kernel)

theorem test_PostAppliesWholeBatch_premises :
    (∀ r ∈ postRecords tGoodBatch, ∀ n, ¬recordFails tRun r n)
    ∧ (((postRecords tGoodBatch).map recordPosting).foldl (afterPosting .host) tRun.queue.entries).length ≤ 32
    ∧ (let s := tQueue tRun ((List.range 27).map fun n => tEntry 2 (.level 0) n)
      s.queue.entries.length ≤ 32
      ∧ 32 < (((postRecords tGoodBatch).map recordPosting).foldl (afterPosting .host) s.queue.entries).length) := by
  refine ⟨fun r hr n => ?_, of_dec (letI := decRecordFails; inferInstance) (by decide +kernel), of_dec (letI := decRecordFails; inferInstance) (by decide +kernel)⟩
  by_cases h : n < 11
  · exact (show ∀ r ∈ postRecords tGoodBatch, ∀ n < 11, ¬recordFails tRun r n from of_dec (letI := decRecordFails; inferInstance) (by decide +kernel)) r hr n h
  · unfold recordFails; dsimp only; split <;> first | omega | simp

theorem test_WithdrawAndForceBoundary_premises :
    tDrive.ready = true ∧ tDrive.ctl.mode = .run
    ∧ (¬∃ c : ChanId, (3 : Byte).toNat = c.val ∧ (tDrive.chans.get c).mode ≠ .unused)
    ∧ 16 ≤ (16 : Byte).toNat ∧ (15 : Byte) ≠ 0 ∧ (15 : Byte).toNat < 16
    ∧ (2 : Byte).toNat = (2 : ChanId).val ∧ (tDrive.chans.get 2).mode ≠ .unused
    ∧ 1 < (2 : Byte).toNat ∧ (1 : Byte).toNat ≤ 1 := by decide +kernel

theorem test_ClearTripsClearsEligible_premises :
    (∀ m ∈ [OpMode.setup, .run, .check], (tTripped (tIn m) .manual).ready = true)
    ∧ (MaskOf 0 (fun c => ((0 : Byte) ++ (1 : Byte)).getLsbD c.val = true ∧ eligible (tTripped (tIn .run) .manual) c)
      ∧ MaskOf 1 (fun c => ((0 : Byte) ++ (1 : Byte)).getLsbD c.val = true
        ∧ ((tTripped (tIn .run) .manual).trips.get c).latch = true ∧ ¬eligible (tTripped (tIn .run) .manual) c))
    ∧ MaskOf 1 (fun c => ((0 : Byte) ++ (1 : Byte)).getLsbD c.val = true
        ∧ eligible { tTripped (tIn .run) .manual with ils := State.reset.ils } c) := by
  unfold MaskOf; decide +kernel

/-- The part with channel 2 captured twice. -/
def tCaptured (m : OpMode) : State :=
  { tIn m with senses := State.reset.senses.set 2 { Sense.reset with captured := true, overcaptured := true } }

theorem test_ClearOvercaptureKeepsCaptures_premises :
    (∀ m ∈ [OpMode.setup, .run, .check], (tCaptured m).ready = true)
    ∧ MaskOf 4 (fun c => ((0 : Byte) ++ (0xFF : Byte)).getLsbD c.val = true
      ∧ ((tCaptured .run).senses.get c).overcaptured = true)
    ∧ Sense.reset.overcaptured = false := by
  unfold MaskOf; decide +kernel

/-- A STATE section for state 9 with one byte replaced. -/
def tSection (i : Nat) (b : Byte) : List Byte :=
  ([0, 9, 1, 0xFF, 0xFF, 0x3F, 2, 0, 4] ++ List.replicate 32 0 ++ [9, 10, 0, 1, 9, 3, 15, 1, 0, 9, 3, 0, 9, 0, 0, 0] :
    List Byte).set i b

/-- An ANY section whose slots go to state 0 on TRIGGER 3, with one byte replaced. -/
def tAny (i : Nat) (b : Byte) : List Byte := (1 :: (List.replicate 6 [0, 9, 3, 0]).flatten).set i b

theorem test_TableWriteReplacesSection_premises :
    (∀ s ∈ [tIn .setup, tIn .run, tSeq .running, tSeq .held], s.ready = true ∧ (s.ctl.mode = .setup ∨ s.ctl.mode = .run)
      ∧ s.ctl.writeLockConfig = false ∧ s.ctl.writeLockAll = false)
    ∧ ((tIn .run).seq.unit = .disabled ∧ (tSeq .running).seq.unit ≠ .disabled ∧ (tSeq .held).seq.unit ≠ .disabled)
    ∧ ((tSection 0 0).length = 57 ∧ byteAt (tSection 0 0) 0 = 0 ∧ (byteAt (tSection 0 0) 1).toNat = (9 : LineId).val)
    ∧ ((tAny 0 1).length = 25 ∧ byteAt (tAny 0 1) 0 = 1)
    ∧ (∀ b ∈ [(tSection 0 2, 1, 0), (tAny 0 2, 1, 0), (tSection 1 10, 2, 0), (tSection 8 5, 3, 0),
        (tSection 54 11, 4, 3), (tSection 41 10, 5, 0), (tAny 22 11, 4, 5), (tAny 21 10, 5, 5)],
      tableFails b.1 b.2.1 b.2.2 ∧ (∀ m < b.2.1, ∀ j < 7, ¬tableFails b.1 m j)
      ∧ ∀ j < b.2.2, ¬tableFails b.1 b.2.1 j) := by
  exact of_dec (letI := decTableFails; inferInstance) (by decide +kernel)

/-- No check of R136 fails at a slot past the last. -/
theorem tableFails_slot (b : List Byte) (n k : Nat) (h : 6 ≤ k) : ¬tableFails b n k := by
  unfold tableFails
  dsimp only
  split
  · omega
  · omega
  · omega
  · split <;> omega
  · split <;> omega
  · exact id

theorem test_good_sections_pass :
    ∀ b ∈ [tSection 0 0, tAny 0 1], ∀ n k, ¬tableFails b n k := by
  intro b hb n k
  by_cases hk : k < 6
  · by_cases hn : n < 6
    · exact (show ∀ b ∈ [tSection 0 0, tAny 0 1], ∀ n < 6, ∀ k < 6, ¬tableFails b n k from
        of_dec (letI := decTableFails; inferInstance) (by decide +kernel)) b hb n hn k hk
    · unfold tableFails; dsimp only; split <;> first | omega | exact id
  · exact tableFails_slot b n k (by omega)

theorem test_SeqArmValidatesAndEnters_premises :
    ((tSeq .disabled).ready = true ∧ (tSeq .disabled).ctl.mode = .run ∧ (tSeq .disabled).seq.unit = .disabled)
    ∧ ((tSeq .running).seq.unit ≠ .disabled ∧ (tSeq .held).seq.unit ≠ .disabled)
    ∧ 10 ≤ (10 : Byte).toNat ∧ (9 : Byte).toNat = (9 : LineId).val
    ∧ (tSeq .disabled).armFault 9 = none
    ∧ (∃ f, (tIn .run).armFault 0 = some f)
    ∧ (tSeq .disabled).home.filtered = .high := by
  refine ⟨by decide +kernel, by decide +kernel, by decide, by decide, by decide +kernel, ?_, by decide⟩
  exact Option.isSome_iff_exists.1 (by decide +kernel)

/-- SEQ_ARM's validation fails first at the home state, where it is undefined. -/
theorem test_SeqArm_first_fault_home :
    armFails (tIn .run) 0 10 0 0 0 ∧ ∀ p i n k, armFails (tIn .run) 0 p i n k → armOrder 10 0 0 0 ≤ armOrder p i n k :=
  ⟨by show _ ∧ _ ∧ _ ∧ _; decide +kernel, fun p i n k _ => Nat.zero_le (armOrder p i n k)⟩

/-- Line state 0 alone defined, and a fault in the last any-state slot: a target that is not defined. -/
def tLastSlot : State :=
  { tIn .run with seq := { SeqUnit.reset with
      table := (SeqUnit.reset.table).set 0 { StateRec.reset with defined := 1 }
      anySlots := (SeqUnit.reset.anySlots).set 5 (tAlways 9) } }

/-- SEQ_ARM's validation can fail first at the last item it tests. -/
theorem test_SeqArm_first_fault_last_slot :
    armFails tLastSlot 0 11 1 5 1
    ∧ ∀ p i n k, armFails tLastSlot 0 p i n k → armOrder 11 1 5 1 ≤ armOrder p i n k := by
  have own : ∀ (l : LineId) (j : Fin 4), ((tLastSlot.seq.table.get l).slots.get j).source = 0 := by decide +kernel
  have cnt : ∀ l : LineId, (tLastSlot.seq.table.get l).count = 0 := by decide +kernel
  have oth : ∀ j : Fin 6, j.val ≠ 5 → (tLastSlot.seq.anySlots.get j).source = 0 := by decide +kernel
  refine ⟨Or.inr ⟨rfl, 5, rfl, by decide +kernel, ?_⟩, fun p i n k h => ?_⟩
  · show ¬∃ l : LineId, _
    decide +kernel
  · match i, h with
    | 0, h => exact absurd h.2.2.2 (by decide +kernel)
    | 1, h =>
      rcases h with ⟨l, _, _, j, _, hs, _⟩ | ⟨hp, j, hn, hs, hk⟩
      · exact absurd (own l j) hs
      · by_cases hj : j.val = 5
        · rw [hp, hn, hj]
          match k, hk with
          | 1, _ => exact Nat.le_refl _
          | 2, _ => decide
          | 3, _ => decide
        · exact absurd (oth j hj) hs
    | 2, h =>
      obtain ⟨l, _, _, j, _, hc, _⟩ := h
      rw [cnt l] at hc
      exact absurd hc (Nat.not_lt_zero _)

theorem test_DisarmHomeAndTrigger_premises :
    (∀ u ∈ [UnitState.disabled, .running, .held], (tSeq u).ready = true ∧ (tSeq u).ctl.mode = .run
      ∧ (tSeq u).seq.unit = u ∧ (tSeq u).seq.home = some 0)
    ∧ (let s : State := { tSeq .running with seq := (tSeq .running).seq.inLine 0 }
      s.seq.gate.getLsbD 0 = true ∧ s.seq.gate.getLsbD 1 = false ∧ s.driveState 1 = .blocked
      ∧ (s.chans.get 1).mode ≠ .unused ∧ (s.trips.get 1).latch = false
      ∧ commandedState (s.chans.get 1).act = .driving)
    ∧ 4 ≤ (4 : Byte).toNat ∧ (3 : Byte).toNat < 4 := by decide +kernel

/-- A CHECK body for the mask 7 with one byte replaced. -/
def tCheckBody (i : Nat) (b : Byte) : List Byte := ([7, 0, 2, 1, 1, 255, 0x10, 0x27] : List Byte).set i b

/-- SETUP with the channels 0 to 2 tripped. -/
def tAllTripped : State := { tIn .setup with trips := .fill 16 { latch := true, cause := 1 } }

theorem test_CheckBeginsAndStops_premises :
    ((tIn .setup).ready = true ∧ (tIn .setup).ctl.mode = .setup ∧ (tIn .setup).ctl.timebaseOk = true
      ∧ (tCheckBody 0 7).length = 8)
    ∧ (∀ b ∈ [(tCheckBody 0 0, 1, 0), (tCheckBody 0 15, 2, 3), (tCheckBody 1 0x80, 2, 15), (tCheckBody 2 3, 3, 0),
        (tCheckBody 3 2, 4, 0), (tCheckBody 4 0, 5, 0), (tCheckBody 5 0, 6, 0), (tCheckBody 6 0x11, 7, 0)],
      checkFails (tIn .setup) b.1 b.2.1 b.2.2 ∧ ∀ m < b.2.1, ∀ j < 16, ¬checkFails (tIn .setup) b.1 m j)
    ∧ (tParams.visits = (.static, 0) :: [(.static, 1), (.static, 2), (.pulse, 0), (.pulse, 1), (.pulse, 2)]
      ∧ ((tIn .setup).trips.get (visitChannel tParams.order 0)).latch = false
      ∧ stepsOf .static ((tIn .setup).chans.get (visitChannel tParams.order 0)).mode = .idle :: [.aOn, .bOn])
    ∧ (tParams.visits = [(.static, 0)] ++ (.static, 1) :: [(.static, 2), (.pulse, 0), (.pulse, 1), (.pulse, 2)]
      ∧ (∀ w ∈ [(Pass.static, 0)],
        ((tTripped (tIn .setup) .auto).trips.get (visitChannel tParams.order w.2)).latch = true)
      ∧ ((tTripped (tIn .setup) .auto).trips.get (visitChannel tParams.order 1)).latch = false)
    ∧ (({ tParams with passes := .pulse }).visits = (.pulse, 0) :: [(.pulse, 1), (.pulse, 2)]
      ∧ stepsOf .pulse ((tIn .setup).chans.get (visitChannel tParams.order 0)).mode = .pulsePos :: [])
    ∧ (∀ c : ChanId, tParams.mask.getLsbD c.val = true → (tAllTripped.trips.get c).latch = true)
    ∧ (tAllTripped.ready = true ∧ (tCheck .static 1 .aOn 0).ready = true)
    ∧ ((tCheck .static 1 .aOn 0).ctl.mode = .check ∧ ((tIn .check).chans.get 0).mode ≠ .unused) := by
  exact of_dec (letI := decCheckFails; inferInstance) (by decide +kernel)

/-- A check number past the last, and a channel past the last, fail nothing. -/
theorem checkFails_beyond (s : State) (b : List Byte) (n k : Nat) (h : 16 ≤ k ∨ 8 ≤ n) : ¬checkFails s b n k := by
  unfold checkFails
  split <;> first | omega | exact id

theorem test_good_check_passes : ∀ n k, ¬checkFails (tIn .setup) (tCheckBody 0 7) n k := by
  intro n k
  by_cases hk : k < 16
  · by_cases hn : n < 8
    · exact (show ∀ n < 8, ∀ k < 16, ¬checkFails (tIn .setup) (tCheckBody 0 7) n k from
        of_dec (letI := decCheckFails; inferInstance) (by decide +kernel)) n hn k hk
    · exact checkFails_beyond _ _ _ _ (by omega)
  · exact checkFails_beyond _ _ _ _ (by omega)

/-! ### Shared rules -/

theorem test_ReleasedEntriesAndRampSteps_premises :
    (tEntry 0 (.level 10001) 0).setpoint = .level 10001 ∧ (tEntry 0 (.ramp (-1) 1) 0).setpoint = .ramp (-1) 1
    ∧ (tEntry 0 (.drive .brake) 0).setpoint = .drive .brake ∧ (tEntry 0 (.clamp 0 0) 0).setpoint = .clamp 0 0
    ∧ (tOn 5 none).ramp = none ∧ (tOn 5 (some { target := 15, step := 10 })).ramp = some { target := 15, step := 10 }
    ∧ ((15 : Int) - 5).natAbs ≤ 10 ∧ 9 < ((15 : Int) - 5).natAbs := by decide +kernel

/-- An accumulator of a value. -/
def tAccum (v : Word) : Accum := { value := v, count := 0, sat := false, armed := true }

theorem test_AdditionsByMode_premises :
    (-10000 ≤ (10000 : Int) ∧ (10000 : Int) ≤ 10000)
    ∧ ((tAccum 2147473647).value.toInt + 10000 = 2147483647 ∧ 2147483647 < (tAccum 2147473648).value.toInt + 10000)
    ∧ ((tAccum 0x80002710).value.toInt + -10000 = -2147483648
      ∧ (tAccum 0x8000270F).value.toInt + -10000 < -2147483648)
    ∧ ((tAccum 4294957295).value.toNat + (10000 : Int).natAbs = 4294967295
      ∧ 4294967295 < (tAccum 4294957296).value.toNat + (10000 : Int).natAbs)
    ∧ (-10000 ≤ (-10000 : Int) ∧ (-10000 : Int) ≤ 10000)
    ∧ ((tAccum 5).crosses .wrap 10 5 = true ∧ (tAccum 5).crosses .wrap 11 5 = false)
    ∧ ((tAccum 2147483646).crosses .wrap 0x7FFFFFFF 1 = true ∧ (tAccum 2147483640).crosses .saturate 0x7FFFFFFF 9 = true
      ∧ (tAccum 4294967294).crosses .magnitude 0xFFFFFFFF (-1) = true
      ∧ (tAccum 4294967295).crosses .magnitude 0 1 = false ∧ (tAccum 0x80000000).crosses .wrap 0x80000000 1 = false)
    ∧ (tAccum 0x8000270F).overflows .saturate (-10000) = true := by decide +kernel

/-- Channel 0 in a drive state of RUN: a commanded drive, tripped, or excluded from the gate mask. -/
def tCommanded (d : Drive) : State :=
  { tDrive with chans := tDrive.chans.set 0 { tChan .complement 8 1 .none with act := { tOn 5000 none with drive := d } } }

theorem test_PinsShowDriveStates_premises :
    (tDrive.ctl.mode = .run ∧ (tDrive.chans.get 0).mode ≠ .unused ∧ (tDrive.chans.get 3).mode = .unused)
    ∧ ((tIn .setup).ctl.mode = .setup ∧ (tIn .check).ctl.mode = .check)
    ∧ (tDrive.driveState 0 = .ramping ∧ (tCommanded .on).driveState 0 = .driving
      ∧ (tCommanded .brake).driveState 0 = .braked ∧ (tCommanded .off).driveState 0 = .idle)
    ∧ ((tTripped tDrive .auto).driveState 0 = .tripped
      ∧ ({ tDrive with seq := { tDrive.seq with gate := 0xFFFE } }).driveState 0 = .blocked)
    ∧ (visitChannel tParams.order 1 = 1 ∧ (tCheck .static 1 .aOn 0).driveState 1 = .checking
      ∧ visitChannel tParams.order 1 ≠ 0 ∧ (tCheck .static 1 .aOn 0).driveState 0 = .idle)
    ∧ (tDrive.pending = [] ∧ ∃ t, step tDrive = .next t) :=
  ⟨by decide +kernel, by decide +kernel, by decide +kernel, by decide +kernel, by decide +kernel, rfl, _,
    step_of_nil _ rfl⟩

/-- The pins of channel 0 under a dead-time of 8 clocks with both outputs long off: a driving one shows A, a braked
one B, a tripped one its safe pattern; a CHECKING one its step. -/
theorem test_patterns_at_the_pins :
    (((tCommanded .brake).settle.outs.get 0).pinA = .inactive ∧ ((tCommanded .brake).settle.outs.get 0).pinB = .active)
    ∧ (((tCommanded .off).settle.outs.get 0).pinA = .inactive ∧ ((tCommanded .off).settle.outs.get 0).pinB = .inactive)
    ∧ (((tCheck .static 1 .aOn 0).settle.outs.get 1).pinA = .active
      ∧ ((tCheck .static 1 .bOn 0).settle.outs.get 1).pinB = .active)
    ∧ ((State.reset.settle.outs.get 0).pinA = .released ∧ State.reset.pinLevel 0 .a = none)
    ∧ ((tCommanded .brake).settle.pinLevel 0 .b = some .high ∧ (tCommanded .brake).settle.pinLevel 0 .a = some .low) := by
  decide +kernel

/-! ### Encodings -/

theorem test_RequestAndLayoutReadBack_premises :
    (requestFrame (.status 5 (.replicate 60 0)) = some { kind := 0x02, tag := 5, body := .replicate 60 0 }
      ∧ (List.replicate 60 (0 : Byte)).length ≤ 60 ∧ (tIn .setup).ctl.mode ≠ .starting
      ∧ (tIn .setup).link.rx = .hunting)
    ∧ (tIn .setup).ready = true ∧ (tIn .setup).ctl.mode = .setup ∧ (tIn .setup).ctl.writeLockAll = false
    ∧ tGoodLayout.length = 45 ∧ ∃ t, exec (.layout 0 tGoodLayout) (tIn .setup) = .next t :=
  ⟨by decide +kernel, by decide +kernel, rfl, rfl, rfl, exec_next _ _⟩

/-! ### Conditions that every step keeps -/

theorem test_OutputsStayApart_premises : OutputsApart tDrive ∧ ∃ t, step tDrive = .next t :=
  ⟨by unfold OutputsApart; decide +kernel, _, step_of_nil _ rfl⟩

/-- One entry for channel 2 and HOLD set by it. -/
def tHeld : State :=
  { tDrive with queue := { entries := [tEntry 2 (.level 5) 4095, tEntry 2 (.level 5) 0], hold := true, holdAt := 2, resumeAt := 1 } }

theorem test_QueueStaysWellFormed_premises : QueueWf tHeld ∧ ∃ t, step tHeld = .next t :=
  ⟨by unfold QueueWf; decide +kernel, _, step_of_nil _ rfl⟩

theorem test_QueueStaysClearOfTrips_premises : QueueAgrees tHeld ∧ ∃ t, step tHeld = .next t :=
  ⟨by unfold QueueAgrees ModesAgree; decide +kernel, _, step_of_nil _ rfl⟩

theorem test_TripsStaySafe_premises :
    TripsWf (tTripped tDrive .auto) ∧ ∃ t, step (tTripped tDrive .auto) = .next t :=
  ⟨by unfold TripsWf; decide +kernel, _, step_of_nil _ rfl⟩

/-- The Timebase at the peak of a CENTRED count. -/
def tPeak : State :=
  { tDrive with tb := { tDrive.tb with
      active := { prescale := 255, period := 16, rep := 127, align := .centred }
      staged := { prescale := 0, period := 65535, rep := 0, align := .centred }
      divider := 255, counter := 16, dir := .down, rep := 127 } }

theorem test_TimebaseStaysInRange_premises : TimebaseWf tPeak ∧ ∃ t, step tPeak = .next t :=
  ⟨by unfold TimebaseWf ModesAgree TbSettings.InRange; decide +kernel, _, step_of_nil _ rfl⟩

/-- A pending notice with count 255 behind a reply being sent, and four requests waiting. -/
def tBusy : State :=
  tLink (tSending tDrive) fun l => { l with
    notices := [{ occ := .flow true, count := 255 }], waiting := .replicate 4 tFrame }

theorem test_NoticesAndBufferStayBounded_premises :
    NoticesWf tBusy ∧ BufferWf tBusy ∧ ∃ t, step tBusy = .next t :=
  ⟨by unfold NoticesWf ModesAgree; decide +kernel, by unfold BufferWf; decide +kernel, _, step_of_nil _ rfl⟩

/-- The conditions on levels, decided channel by channel. -/
@[reducible] def decWithin (a : ActiveSet) : Decidable a.Within :=
  decidable_of_iff
    (-10000 ≤ a.lo ∧ a.lo ≤ 0 ∧ 0 ≤ a.hi ∧ a.hi ≤ 10000 ∧ a.lo ≤ a.level ∧ a.level ≤ a.hi
      ∧ ∀ r ∈ a.ramp, a.lo ≤ r.target ∧ r.target ≤ a.hi) Iff.rfl

/-- Channel 1 at its clamps with a ramp between them, and a CLAMP waiting for it. -/
def tClamped : State :=
  tQueue { tIn .run with chans := tChans.set 1 { tChan .directional 4 2 .endStop with
      act := tOn (-10000) (some { target := 10000, step := 1 }) } } [tEntry 1 (.clamp (-10000) 0) 0]

theorem test_LevelsStayClamped_premises : LevelsWf tClamped ∧ ∃ t, step tClamped = .next t := by
  refine ⟨⟨by unfold ModesAgree; decide +kernel, by decide +kernel, ?_, ?_⟩, _, step_of_nil _ rfl⟩
  · intro e he
    have : e = tEntry 1 (.clamp (-10000) 0) 0 := by simpa [tClamped, tQueue] using he
    subst this
    show _ ∧ _ ∧ _ ∧ _ ∧ _
    decide +kernel
  · intro c
    have h : ∀ c : ChanId, (tClamped.chans.get c).act.Within
        ∧ ((tClamped.chans.get c).mode ≠ .directional → (tClamped.chans.get c).act.lo = 0)
        ∧ (tClamped.chans.get c).pendCfg = none
        ∧ -10000 ≤ (tClamped.chans.get c).cfg.defLo ∧ (tClamped.chans.get c).cfg.defLo ≤ 0
        ∧ 0 ≤ (tClamped.chans.get c).cfg.defHi ∧ (tClamped.chans.get c).cfg.defHi ≤ 10000 :=
      of_dec (letI := decWithin; inferInstance) (by decide +kernel)
    obtain ⟨h1, h2, h3, h4⟩ := h c
    exact ⟨h1, h2, h4, fun g hg => by rw [h3] at hg; cases hg⟩

end Sys2Proof.Machine
end

section
/-! SUPPORT. What the three resets share: each takes the reset values of every unit. -/

namespace Sys2Proof.Machine

/-- POWER_ON, RESET_PIN and the end of the RESTART reply each take a reset (R169, R176). -/
theorem exec_reset_takeReset (c : Instr) (s t : State)
    (hc : c = .powerOn ∨ c = .resetPin
      ∨ c = .frameSent ∧ s.link.restarting = true ∧ ∃ f, s.link.tx = .sending f .reply)
    (h : exec c s = .next t) : ∃ cause u, t = State.takeReset cause u := by
  obtain rfl | rfl | ⟨rfl, hrestart, f, htx⟩ := hc
  · cases h
    exact ⟨_, s, rfl⟩
  · cases h
    exact ⟨.pin, _, rfl⟩
  · have hsent : exec .frameSent s = .next (s.takeReset .restart) := by
      simp [exec, execFrameSent, htx, hrestart]
    cases hsent.symm.trans h
    exact ⟨.restart, s, rfl⟩

@[simp] theorem State.takeReset_accs (cause : ResetCause) (s : State) :
    (s.takeReset cause).accs = .fill 16 .cleared := rfl

@[simp] theorem State.takeReset_chans (cause : ResetCause) (s : State) :
    (s.takeReset cause).chans = .fill 16 .reset := rfl

@[simp] theorem State.takeReset_seq (cause : ResetCause) (s : State) : (s.takeReset cause).seq = .reset := rfl

@[simp] theorem State.takeReset_queue (cause : ResetCause) (s : State) :
    (s.takeReset cause).queue = .reset := rfl

@[simp] theorem State.takeReset_link (cause : ResetCause) (s : State) : (s.takeReset cause).link = .reset := rfl

/-- Every state of the reset table is undefined, and its slots are empty (R133, R134). -/
theorem SeqUnit.reset_table_empty (l : LineId) :
    (SeqUnit.reset.table.get l).defined = 0
      ∧ ∀ k : Fin 4, ((SeqUnit.reset.table.get l).slots.get k).source = 0 := by
  simp [SeqUnit.reset, StateRec.reset, Slot.empty]

theorem SeqUnit.reset_anySlots_empty (k : Fin 6) : (SeqUnit.reset.anySlots.get k).source = 0 := by
  simp [SeqUnit.reset, Slot.empty]

/-- The reset gate mask admits every channel (R155). -/
theorem SeqUnit.reset_gate_admits (c : ChanId) : SeqUnit.reset.gate.getLsbD c.val = true := by
  revert c; decide

/-- Settles O4: each of the three commands takes a reset, whose values are read off unit by unit. -/
theorem resetClearsAccumulatorsAndSequence : Obligations.ResetClearsAccumulatorsAndSequence := by
  intro c s t hc h
  obtain ⟨cause, u, rfl⟩ := exec_reset_takeReset c s t hc h
  simp only [State.takeReset_accs, State.takeReset_chans, State.takeReset_seq, State.takeReset_queue,
    State.takeReset_link, Bank.get_fill]
  exact ⟨fun _ => ⟨rfl, rfl, rfl⟩, rfl, SeqUnit.reset_table_empty, SeqUnit.reset_anySlots_empty, rfl, rfl, rfl,
    rfl, rfl, rfl, SeqUnit.reset_gate_admits, rfl, rfl, rfl⟩

end Sys2Proof.Machine
end

section
/-! SUPPORT. One addition of an accumulator, range by range, and the threshold tests on the stored value. -/

namespace Sys2Proof.Machine

/-! ### A field read under a mode (R126) -/

theorem AccMode.read_eq_ite (m : AccMode) (w : Word) :
    m.read w = if m = .magnitude then (w.toNat : Int) else w.toInt := by
  cases m <;> rfl

/-- Every mode's range holds 2^32 numbers. -/
theorem AccMode.top_eq (m : AccMode) : m.top = m.bottom + 4294967295 := by
  cases m <;> rfl

theorem AccMode.bottom_le_read (m : AccMode) (w : Word) : m.bottom ≤ m.read w := by
  cases m with
  | magnitude => exact Int.natCast_nonneg _
  | wrap | saturate => exact BitVec.le_toInt w

theorem AccMode.read_le_top (m : AccMode) (w : Word) : m.read w ≤ m.top := by
  cases m with
  | magnitude => exact Int.le_of_lt_add_one (Int.ofNat_lt.2 w.isLt)
  | wrap | saturate => exact Int.le_of_lt_add_one BitVec.toInt_lt

theorem AccMode.read_injective (m : AccMode) : Function.Injective m.read := by
  intro x y h
  cases m with
  | magnitude => exact BitVec.eq_of_toNat_eq (Int.ofNat_inj.1 h)
  | wrap | saturate => exact BitVec.eq_of_toInt_eq h

/-- A number of the mode's range is stored as it is. -/
theorem AccMode.read_ofInt {m : AccMode} {n : Int} (hlo : m.bottom ≤ n) (hhi : n ≤ m.top) :
    m.read (BitVec.ofInt 32 n) = n := by
  cases m with
  | magnitude =>
    simp only [bottom, top] at hlo hhi
    simp only [read, BitVec.toNat_ofInt]
    omega
  | wrap | saturate =>
    simp only [bottom, top] at hlo hhi
    simp only [read, BitVec.toInt_ofInt]
    exact Int.bmod_eq_of_le (by omega) (by omega)

/-- Numbers a whole range apart are stored alike. -/
theorem ofInt_add_range (n : Int) : BitVec.ofInt 32 (n + 4294967296) = BitVec.ofInt 32 n :=
  BitVec.eq_of_toNat_eq (by simp only [BitVec.toNat_ofInt]; omega)

/-- A number up to a whole range above the top is stored less 2^32 (R121, R123). -/
theorem AccMode.read_ofInt_of_above {m : AccMode} {n : Int} (hlo : m.top < n) (hhi : n ≤ m.top + 4294967296) :
    m.read (BitVec.ofInt 32 n) = n - 4294967296 := by
  have hrange := m.top_eq
  have hstored := ofInt_add_range (n - 4294967296)
  rw [Int.sub_add_cancel] at hstored
  rw [hstored]
  exact read_ofInt (by omega) (by omega)

/-- A number up to a whole range below the bottom is stored plus 2^32 (R121). -/
theorem AccMode.read_ofInt_of_below {m : AccMode} {n : Int} (hlo : m.bottom - 4294967296 ≤ n) (hhi : n < m.bottom) :
    m.read (BitVec.ofInt 32 n) = n + 4294967296 := by
  have hrange := m.top_eq
  rw [← ofInt_add_range]
  exact read_ofInt (by omega) (by omega)

/-! ### The counts (R121, R123) -/

theorem raiseSigned_toInt (c : Byte) :
    (raiseSigned c).toInt = if c.toInt = 127 then 127 else c.toInt + 1 := by
  have hlo := BitVec.le_toInt c
  have hhi := BitVec.toInt_lt (x := c)
  unfold raiseSigned
  split
  case isTrue h =>
    rw [if_neg (by omega), BitVec.toInt_add, show (1 : Byte).toInt = 1 from rfl]
    exact Int.bmod_eq_of_le (by omega) (by omega)
  case isFalse h => rw [if_pos (by omega)]; omega

theorem lowerSigned_toInt (c : Byte) :
    (lowerSigned c).toInt = if c.toInt = -128 then -128 else c.toInt - 1 := by
  have hlo := BitVec.le_toInt c
  have hhi := BitVec.toInt_lt (x := c)
  unfold lowerSigned
  split
  case isTrue h =>
    rw [if_neg (by omega), BitVec.toInt_sub, show (1 : Byte).toInt = 1 from rfl]
    exact Int.bmod_eq_of_le (by omega) (by omega)
  case isFalse h => rw [if_pos (by omega)]; omega

theorem raiseUnsigned_toNat (c : Byte) :
    (raiseUnsigned c).toNat = if c.toNat = 255 then 255 else c.toNat + 1 := by
  have hhi := c.isLt
  unfold raiseUnsigned
  split
  case isTrue h =>
    have hone : (1 : Byte).toNat = 1 := rfl
    rw [if_neg (by omega), BitVec.toNat_add_of_lt (by omega), hone]
  case isFalse h => rw [if_pos (by omega)]; omega

/-! ### The range handling, by where the true sum lies (R121–R123) -/

theorem Accum.ranged_of_inside (a : Accum) (m : AccMode) (v : Int) (hlo : m.bottom ≤ a.sum m v)
    (hhi : a.sum m v ≤ m.top) : a.ranged m v = { a with value := BitVec.ofInt 32 (a.sum m v) } := by
  simp [ranged, Int.not_lt.2 hlo, Int.not_lt.2 hhi]

theorem Accum.ranged_of_above (a : Accum) (m : AccMode) (v : Int) (hm : m ≠ .saturate) (h : m.top < a.sum m v) :
    a.ranged m v = { a with value := BitVec.ofInt 32 (a.sum m v), count := m.countUp a.count } := by
  cases m with
  | saturate => exact absurd rfl hm
  | wrap | magnitude => simp [ranged, h]

theorem Accum.ranged_wrap_of_below (a : Accum) (v : Int) (h : a.sum .wrap v < AccMode.wrap.bottom) :
    a.ranged .wrap v =
      { a with value := BitVec.ofInt 32 (a.sum .wrap v), count := lowerSigned a.count } := by
  have htop : ¬AccMode.wrap.top < a.sum .wrap v := by have := AccMode.wrap.top_eq; omega
  simp [ranged, h, htop]

theorem Accum.ranged_saturate_of_above (a : Accum) (v : Int) (h : AccMode.saturate.top < a.sum .saturate v) :
    a.ranged .saturate v = { a with value := BitVec.ofInt 32 AccMode.saturate.top, sat := true } := by
  simp [ranged, h]

theorem Accum.ranged_saturate_of_below (a : Accum) (v : Int) (h : a.sum .saturate v < AccMode.saturate.bottom) :
    a.ranged .saturate v = { a with value := BitVec.ofInt 32 AccMode.saturate.bottom, sat := true } := by
  have htop : ¬AccMode.saturate.top < a.sum .saturate v := by have := AccMode.saturate.top_eq; omega
  simp [ranged, h, htop]

/-- Only SATURATE touches SAT (R122). -/
theorem Accum.ranged_sat_of_ne (a : Accum) (m : AccMode) (v : Int) (hm : m ≠ .saturate) :
    (a.ranged m v).sat = a.sat := by
  cases m with
  | saturate => exact absurd rfl hm
  | wrap | magnitude =>
    dsimp only [ranged]
    split
    · rfl
    · split <;> rfl

/-! ### The whole addition -/

@[simp] theorem Accum.add_value (a : Accum) (m : AccMode) (th : Word) (v : Int) :
    (a.add m th v).value = (a.ranged m v).value := rfl

@[simp] theorem Accum.add_count (a : Accum) (m : AccMode) (th : Word) (v : Int) :
    (a.add m th v).count = (a.ranged m v).count := rfl

@[simp] theorem Accum.add_sat (a : Accum) (m : AccMode) (th : Word) (v : Int) :
    (a.add m th v).sat = (a.ranged m v).sat := rfl

/-- An ACCUM occurrence comes where the sum leaves the range, in SATURATE only where SAT was clear (R124). -/
theorem Accum.overflows_iff (a : Accum) (m : AccMode) (v : Int) :
    a.overflows m v = true ↔
      (m.top < a.sum m v ∨ a.sum m v < m.bottom) ∧ (m = .saturate → a.sat = false) := by
  simp [overflows, imp_iff_not_or]

/-- The true sum passes a limit by at most the largest level, so one turn of the range brings it back. -/
theorem Accum.sum_near_range (a : Accum) (m : AccMode) (v : Int) (hlo : -10000 ≤ v) (hhi : v ≤ 10000) :
    m.bottom - 10000 ≤ a.sum m v ∧ a.sum m v ≤ m.top + 10000 := by
  have hbottom := m.bottom_le_read a.value
  have htop := m.read_le_top a.value
  have hamount : -10000 ≤ m.amount v ∧ m.amount v ≤ 10000 := by
    cases m <;> simp only [AccMode.amount] <;> omega
  unfold sum
  omega

/-- A sum inside the range is stored as it is (R121–R123). -/
theorem Accum.add_of_inside (a : Accum) (m : AccMode) (th : Word) (v : Int) (hlo : m.bottom ≤ a.sum m v)
    (hhi : a.sum m v ≤ m.top) :
    m.read (a.add m th v).value = a.sum m v ∧ (a.add m th v).count = a.count ∧ a.overflows m v = false := by
  rw [add_value, add_count, ranged_of_inside a m v hlo hhi]
  exact ⟨AccMode.read_ofInt hlo hhi, rfl, by simp [overflows, Int.not_lt.2 hlo, Int.not_lt.2 hhi]⟩

/-- A sum above the range wraps, raises the count and offers ACCUM (R121, R123, R124). -/
theorem Accum.add_of_above (a : Accum) (m : AccMode) (th : Word) (v : Int) (hm : m ≠ .saturate)
    (hlo : -10000 ≤ v) (hhi : v ≤ 10000) (h : m.top < a.sum m v) :
    m.read (a.add m th v).value = a.sum m v - 4294967296
      ∧ (a.add m th v).count = m.countUp a.count ∧ a.overflows m v = true := by
  have hnear := a.sum_near_range m v hlo hhi
  rw [add_value, add_count, ranged_of_above a m v hm h]
  exact ⟨AccMode.read_ofInt_of_above h (by omega), rfl, (a.overflows_iff m v).2 ⟨.inl h, (absurd · hm)⟩⟩

/-- A sum below the WRAP range wraps, lowers the count and offers ACCUM (R121, R124). -/
theorem Accum.add_wrap_of_below (a : Accum) (th : Word) (v : Int) (hlo : -10000 ≤ v) (hhi : v ≤ 10000)
    (h : a.sum .wrap v < AccMode.wrap.bottom) :
    AccMode.wrap.read (a.add .wrap th v).value = a.sum .wrap v + 4294967296
      ∧ (a.add .wrap th v).count = lowerSigned a.count ∧ a.overflows .wrap v = true := by
  have hnear := a.sum_near_range .wrap v hlo hhi
  rw [add_value, add_count, ranged_wrap_of_below a v h]
  exact ⟨AccMode.read_ofInt_of_below (by omega) h, rfl, (a.overflows_iff .wrap v).2 ⟨.inr h, nofun⟩⟩

/-- In SATURATE: the value is held at the limit the sum passes, SAT is set there, the count stays (R122). -/
theorem Accum.add_saturate (a : Accum) (th : Word) (v sum : Int) (hsum : sum = a.value.toInt + v) :
    (a.add .saturate th v).value.toInt
        = (if 2147483647 < sum then 2147483647 else if sum < -2147483648 then -2147483648 else sum)
      ∧ (a.add .saturate th v).sat = (a.sat || decide (2147483647 < sum ∨ sum < -2147483648))
      ∧ (a.add .saturate th v).count = a.count := by
  have hs : a.sum .saturate v = sum := hsum.symm
  rw [add_value, add_sat, add_count]
  by_cases habove : 2147483647 < sum
  · rw [ranged_saturate_of_above a v (hs ▸ habove), if_pos habove]
    exact ⟨rfl, by simp [habove], rfl⟩
  by_cases hbelow : sum < -2147483648
  · rw [ranged_saturate_of_below a v (hs ▸ hbelow), if_neg habove, if_pos hbelow]
    exact ⟨rfl, by simp [hbelow], rfl⟩
  · have hlo : AccMode.saturate.bottom ≤ sum := Int.not_lt.1 hbelow
    have hhi : sum ≤ AccMode.saturate.top := Int.not_lt.1 habove
    rw [ranged_of_inside a .saturate v (hs ▸ hlo) (hs ▸ hhi), if_neg habove, if_neg hbelow, hs]
    exact ⟨AccMode.read_ofInt hlo hhi, by simp [habove, hbelow], rfl⟩

/-! ### The threshold tests (R126, R127) -/

theorem Accum.crosses_iff (a : Accum) (m : AccMode) (th : Word) (v : Int) :
    a.crosses m th v = true ↔
      a.armed = true ∧ m.read a.value < m.read th ∧ m.read th ≤ m.read (a.add m th v).value := by
  simp [crosses, AccMode.below, and_assoc]

theorem Accum.add_armed_iff (a : Accum) (m : AccMode) (th : Word) (v : Int) :
    (a.add m th v).armed = true ↔
      a.armed = true ∧ a.crosses m th v = false ∨ m.read (a.add m th v).value < m.read th := by
  simp [add, AccMode.below]

/-- The largest threshold is crossed only by a value that lands on it (R126). -/
theorem Accum.eq_of_crosses_top (a : Accum) (m : AccMode) (th : Word) (v : Int) (hth : m.read th = m.top)
    (h : a.crosses m th v = true) : (a.add m th v).value = th := by
  obtain ⟨-, -, hreach⟩ := (a.crosses_iff m th v).1 h
  have hmax := m.read_le_top (a.add m th v).value
  exact m.read_injective (by omega)

/-- The smallest threshold is never crossed: no value lies below it (R126). -/
theorem Accum.not_crosses_bottom (a : Accum) (m : AccMode) (th : Word) (v : Int) (hth : m.read th = m.bottom) :
    a.crosses m th v = false := by
  rw [Bool.eq_false_iff]
  intro h
  obtain ⟨-, hbelow, -⟩ := (a.crosses_iff m th v).1 h
  have hmin := m.bottom_le_read a.value
  omega

theorem AccMode.read_largest (m : AccMode) :
    m.read (if m = .magnitude then 0xFFFFFFFF else 0x7FFFFFFF) = m.top := by
  cases m <;> rfl

theorem AccMode.read_smallest (m : AccMode) :
    m.read (if m = .magnitude then 0 else 0x80000000) = m.bottom := by
  cases m <;> rfl

/-! ### The obligation -/

/-- Settles O50, mode by mode from where the true sum lies, and the threshold tests from the stored value. -/
theorem additionsByMode : Obligations.AdditionsByMode := by
  refine ⟨fun a th v hlo hhi => ⟨?wrap, ?magnitude⟩, by decide, ?tests⟩
  case wrap =>
    intro sum hsum
    have hs : a.sum .wrap v = sum := hsum.symm
    subst hs
    refine ⟨fun ⟨h1, h2⟩ => a.add_of_inside .wrap th v h1 h2, fun h => ?above, fun h => ?below,
      a.ranged_sat_of_ne .wrap v nofun⟩
    case above =>
      obtain ⟨hvalue, hcount, hoffer⟩ := a.add_of_above .wrap th v nofun hlo hhi h
      exact ⟨hvalue, hcount ▸ raiseSigned_toInt a.count, hoffer⟩
    case below =>
      obtain ⟨hvalue, hcount, hoffer⟩ := a.add_wrap_of_below th v hlo hhi h
      exact ⟨hvalue, hcount ▸ lowerSigned_toInt a.count, hoffer⟩
  case magnitude =>
    intro sum hsum
    have hs : a.sum .magnitude v = sum := by rw [hsum]; rfl
    refine ⟨fun h => ?inside, fun h => ?above, a.ranged_sat_of_ne .magnitude v nofun⟩
    case inside =>
      obtain ⟨hvalue, hcount, hoffer⟩ := a.add_of_inside .magnitude th v
        (hs ▸ Int.natCast_nonneg sum) (hs ▸ Int.ofNat_le.2 h)
      exact ⟨Int.ofNat_inj.1 (hvalue.trans hs), hcount, hoffer⟩
    case above =>
      obtain ⟨hvalue, hcount, hoffer⟩ := a.add_of_above .magnitude th v nofun hlo hhi (hs ▸ Int.ofNat_lt.2 h)
      simp only [hs, AccMode.read] at hvalue
      exact ⟨by omega, hcount ▸ raiseUnsigned_toNat a.count, hoffer⟩
  case tests =>
    intro a th v sum m read _ _ hsum hread
    have hr : read = m.read := by rw [hread]; funext w; exact (m.read_eq_ite w).symm
    subst hr
    have hs : a.sum .saturate v = sum := hsum.symm
    obtain ⟨hvalue, hsat, hcount⟩ := a.add_saturate th v sum hsum
    refine ⟨hvalue, hsat, hcount, ?offers, a.crosses_iff m th v, a.add_armed_iff m th v,
      fun hth => a.eq_of_crosses_top m th v (hth ▸ m.read_largest),
      fun hth => a.not_crosses_bottom m th v (hth ▸ m.read_smallest)⟩
    case offers =>
      rw [a.overflows_iff, hs, and_comm]
      simp [AccMode.top, AccMode.bottom]

end Sys2Proof.Machine
end

section
/-! SUPPORT. One step taken apart once for every invariant: what a request's effects can be, what an event can be, and
that a condition kept by each of them is kept by every command and every step. -/

namespace Sys2Proof.Machine

/-! ### The decoder's judgement -/

/-- The decoder refuses a request and leaves the state, or its owning unit takes it in a mode that allows it. -/
theorem State.judge_cases (f : Frame) (s : State) :
    (s.judge f).state = s
      ∨ ∃ k, ReqKind.ofCode f.kind = some k ∧ k.modeOk s.ctl.mode = true ∧ s.judge f = k.take f.body s := by
  unfold State.judge
  split
  case h_1 => exact .inl rfl
  case h_2 k hk =>
    by_cases hlen : k.lenOk f.body = true
    case neg => exact .inl (by simp [hlen, Answer.refuse])
    by_cases hmode : k.modeOk s.ctl.mode = true
    case neg => exact .inl (by simp [hlen, hmode, Answer.refuse])
    by_cases horder : k.orderOk s.ctl = true
    case neg => exact .inl (by simp [hlen, hmode, horder, Answer.refuse])
    cases hlock : k.locked s.ctl with
    | true => exact .inl (by simp [hlen, hmode, horder, Answer.refuse])
    | false => exact .inr ⟨k, hk, hmode, by simp [hlen, hmode, horder]⟩

theorem inModes_setup {m : OpMode} (h : inModes true false false m = true) : m = .setup := by
  cases m <;> simp_all [inModes]

theorem inModes_run {m : OpMode} (h : inModes false true false m = true) : m = .run := by
  cases m <;> simp_all [inModes]

theorem inModes_check {m : OpMode} (h : inModes false false true m = true) : m = .check := by
  cases m <;> simp_all [inModes]

theorem inModes_setup_or_run {m : OpMode} (h : inModes true true false m = true) : m = .setup ∨ m = .run := by
  cases m <;> simp_all [inModes]

/-! ### What the checks of a request say of what they pass -/

theorem chanOf_eq_some {b : Byte} {c : ChanId} : chanOf b = some c ↔ b.toNat = c.val := by
  unfold chanOf
  split
  · simp [Fin.ext_iff]
  · next h => exact ⟨nofun, fun e => absurd (e ▸ c.isLt) h⟩

theorem chanOf_eq_none {b : Byte} : chanOf b = none ↔ 16 ≤ b.toNat := by
  unfold chanOf; split <;> simp <;> omega

/-- A setpoint that passes checks 3 to 10 has a delay up to 4095, and a CLAMP keeps its channel in range (R22). -/
theorem checkSetpoint_ok {m : ChanMode} {r : PostRec} {sp : Setpoint} (h : checkSetpoint m r = .ok sp) :
    r.delay.toNat ≤ 4095 ∧ sp.ClampOk m := by
  unfold checkSetpoint at h
  dsimp only at h
  split at h
  · cases h
  split at h
  · cases h
  refine ⟨by omega, ?_⟩
  split at h
  · repeat' (split at h; · cases h)
    cases h; trivial
  · repeat' (split at h; · cases h)
    cases h; trivial
  · split at h <;> cases h
    trivial
  · split at h
    · cases h
    split at h
    · cases h
    next hrange hsign =>
    cases h
    simp only [Config.fullLevel] at hrange
    simp only [Setpoint.ClampOk]
    refine ⟨by omega, by omega, by omega, by omega, fun hm => ?_⟩
    have : ¬r.value.toInt < 0 := fun hv => hsign ⟨hv, hm⟩
    omega

/-- A posting that may be inserted: for a used channel that is not tripped, with a delay up to 4095, a CLAMP within
range (R22, R42). -/
structure State.Accepts (s : State) (p : Posting) : Prop where
  used : s.used p.channel = true
  clear : s.latched p.channel = false
  delay : p.delay ≤ 4095
  clamp : p.setpoint.ClampOk (s.chans.get p.channel).mode

/-- There is room for a posting: its key is held or fewer than 32 entries are (R24, R25). -/
def State.HasRoom (s : State) (p : Posting) : Prop :=
  s.queue.holdsKey p = true ∨ s.occupancy < Config.queueCapacity

theorem State.checkRecord_ok {s : State} {r : PostRec} {p : Posting} (h : s.checkRecord r = .ok p) :
    s.Accepts p := by
  unfold State.checkRecord at h
  split at h
  case h_1 => cases h
  case h_2 c _ =>
    cases hu : s.used c with
    | false => simp [hu] at h
    | true =>
      cases hl : s.latched c with
      | true => simp [hu, hl] at h
      | false =>
        cases hsp : checkSetpoint (s.chans.get c).mode r with
        | error n => simp [hu, hl, hsp] at h
        | ok sp =>
          simp only [hu, hl, hsp, Bool.not_true, Bool.false_eq_true, if_false, Except.ok.injEq] at h
          subst h
          exact ⟨hu, hl, (checkSetpoint_ok hsp).1, (checkSetpoint_ok hsp).2⟩

theorem State.checkEntryPosting_ok {s : State} {r : PostRec} {p : Posting} (h : s.checkEntryPosting r = .ok p)
    (hl : s.latched p.channel = false) : s.Accepts p := by
  unfold State.checkEntryPosting at h
  split at h
  case h_1 => cases h
  case h_2 c _ =>
    cases hu : s.used c with
    | false => simp [hu] at h
    | true =>
      cases hsp : checkSetpoint (s.chans.get c).mode r with
      | error n => simp [hu, hsp] at h
      | ok sp =>
        simp only [hu, hsp, Bool.not_true, Bool.false_eq_true, if_false, Except.ok.injEq] at h
        subst h
        exact ⟨hu, hl, (checkSetpoint_ok hsp).1, (checkSetpoint_ok hsp).2⟩

theorem State.checkRecords_ok {s : State} {rs : List PostRec} {ps : List Posting} {i : Nat}
    (h : s.checkRecords i rs = .ok ps) : ∀ p ∈ ps, s.Accepts p := by
  induction rs generalizing i ps with
  | nil => cases h; simp
  | cons r rs ih =>
    unfold State.checkRecords at h
    split at h
    · cases h
    next p hp =>
    split at h
    · cases h
    next qs hq =>
    cases h
    intro q hmem
    rcases List.mem_cons.1 hmem with rfl | hmem
    · exact State.checkRecord_ok hp
    · exact ih hq q hmem

/-- Settings that pass the checks of TIMEBASE are in range, and in RUN keep the alignment (R9). -/
theorem State.checkTimebase_ok {s : State} {body : List Byte} {g : TbSettings} (h : s.checkTimebase body = .ok g) :
    g.InRange ∧ (s.ctl.mode = .run → g.align = s.tb.active.align) := by
  unfold State.checkTimebase at h
  dsimp only at h
  split at h
  · cases h
  split at h
  · cases h
  split at h
  · cases h
  split at h
  · cases h
  next hmode =>
  split at h
  · cases h
  cases h
  have h0 := (byteAt body 0).isLt
  have h1 := (halfAt body 1).isLt
  refine ⟨⟨?_, ?_, ?_, ?_⟩, fun hr => ?_⟩
  · dsimp only; omega
  · dsimp only; omega
  · dsimp only; omega
  · dsimp only; omega
  · by_contra hne; exact hmode ⟨hr, hne⟩

/-- A configuration that passes the checks of CONFIG_WRITE has its default clamps in range (R48). -/
theorem configAt_ok {body : List Byte} {c : ChanId} {g : ChanCfg} (h : configAt body = .ok (c, g)) : g.ClampsOk := by
  unfold configAt at h
  dsimp only at h
  repeat' (split at h <;> try contradiction)
  cases h
  simp only [Config.fullLevel] at *
  unfold ChanCfg.ClampsOk
  dsimp only
  omega

/-! ### Insertion of a batch -/

theorem PostingQueue.holdsKey_iff (q : PostingQueue) (p : Posting) :
    q.holdsKey p = true ↔ p.key ∈ q.entries.map Entry.key := by
  simp [PostingQueue.holdsKey]

theorem Posting.entry_key (p : Posting) (o : Origin) : (p.entry o).key = p.key := rfl

theorem Entry.coalesce_key (p : Posting) (o : Origin) (e : Entry) : (e.coalesce p o).key = e.key := by
  unfold Entry.coalesce
  split
  · next h => exact h.symm ▸ (by simp only [Entry.key, Posting.key, Prod.mk.injEq] at h ⊢; exact ⟨h.1, trivial, h.2.2⟩)
  · rfl

theorem State.insert_entries_of_held {o : Origin} {p : Posting} {s : State} (h : s.queue.holdsKey p = true) :
    s.insert o p = { s with queue := { s.queue with entries := s.queue.entries.map (Entry.coalesce p o) } } := by
  simp [State.insert, h]

theorem State.insert_of_not_held {o : Origin} {p : Posting} {s : State} (h : s.queue.holdsKey p = false) :
    s.insert o p
      = State.holdAfterAppend { s with queue := { s.queue with entries := s.queue.entries ++ [p.entry o] } } := by
  simp [State.insert, h]

theorem State.holdAfterAppend_entries (s : State) : s.holdAfterAppend.queue.entries = s.queue.entries := by
  unfold State.holdAfterAppend; split <;> rfl

theorem State.holdAfterRemoval_entries (s : State) : s.holdAfterRemoval.queue.entries = s.queue.entries := by
  unfold State.holdAfterRemoval; split <;> rfl

/-- The keys after an insertion: the same, or the posting's key at the end (R20). -/
theorem State.insert_keys (o : Origin) (p : Posting) (s : State) :
    (s.insert o p).keys = if s.queue.holdsKey p then s.keys else s.keys ++ [p.key] := by
  unfold State.keys
  cases h : s.queue.holdsKey p with
  | true =>
    rw [State.insert_entries_of_held h, if_pos rfl, List.map_map]
    exact List.map_congr_left fun e _ => Entry.coalesce_key p o e
  | false =>
    rw [State.insert_of_not_held h, State.holdAfterAppend_entries]
    simp [Posting.entry_key]

/-- The places a batch needs depend on which keys are held, not on their order. -/
theorem placesNeeded_congr {a b : List (ChanId × Kind × Nat)} (ps : List Posting) (h : ∀ k, k ∈ a ↔ k ∈ b) :
    placesNeeded a ps = placesNeeded b ps := by
  induction ps generalizing a b with
  | nil => rfl
  | cons p ps ih =>
    have hc : a.contains p.key = b.contains p.key := by
      rw [Bool.eq_iff_iff, List.contains_iff_mem, List.contains_iff_mem, h]
    unfold placesNeeded
    rw [hc, ih h, ih (a := p.key :: a) (b := p.key :: b) fun k => by simp [h]]

theorem State.occupancy_eq (s : State) : s.occupancy = s.keys.length := by simp [State.occupancy, State.keys]

theorem State.keys_contains (s : State) (p : Posting) : s.keys.contains p.key = s.queue.holdsKey p := by
  rw [Bool.eq_iff_iff, List.contains_iff_mem, PostingQueue.holdsKey_iff]; rfl

/-- One insertion takes the places that one posting needs (R24). -/
theorem State.placesNeeded_insert (o : Origin) (p : Posting) (ps : List Posting) (s : State) :
    placesNeeded s.keys (p :: ps) + s.occupancy
      = placesNeeded (s.insert o p).keys ps + (s.insert o p).occupancy := by
  rw [State.occupancy_eq, State.occupancy_eq]
  conv_lhs => unfold placesNeeded
  rw [State.keys_contains, State.insert_keys]
  cases s.queue.holdsKey p with
  | true => simp
  | false =>
    have hk := placesNeeded_congr ps (a := p.key :: s.keys) (b := s.keys ++ [p.key]) fun k => by simp [or_comm]
    simp only [Bool.false_eq_true, if_false, List.length_append, List.length_singleton, hk]
    omega

/-- A batch takes the places it needs (R24, R25). -/
theorem State.insertAll_occupancy (o : Origin) (ps : List Posting) (s : State) :
    (s.insertAll o ps).2.occupancy = placesNeeded s.keys ps + s.occupancy := by
  induction ps generalizing s with
  | nil => simp [State.insertAll, placesNeeded]
  | cons p ps ih =>
    have := State.placesNeeded_insert o p ps s
    have hrest := ih (s.insert o p)
    show (State.insertAll o ps (s.insert o p)).2.occupancy = _
    omega

theorem State.occupancy_le_insert (o : Origin) (p : Posting) (s : State) :
    s.occupancy ≤ (s.insert o p).occupancy := by
  rw [State.occupancy_eq, State.occupancy_eq, State.insert_keys]
  split <;> simp

/-- Room for a batch is room for its first posting. -/
theorem State.hasRoom_of_places {p : Posting} {ps : List Posting} {s : State}
    (h : placesNeeded s.keys (p :: ps) ≤ Config.queueCapacity - s.occupancy) : s.HasRoom p := by
  unfold State.HasRoom
  cases hk : s.queue.holdsKey p with
  | true => exact .inl rfl
  | false =>
    unfold placesNeeded at h
    rw [State.keys_contains, hk] at h
    simp only [Bool.false_eq_true, if_false] at h
    exact .inr (by omega)

theorem State.Accepts.insert {s : State} {p q : Posting} {o : Origin} (h : s.Accepts p) : (s.insert o q).Accepts p where
  used := by simpa [State.used] using h.used
  clear := by simpa [State.latched] using h.clear
  delay := h.delay
  clamp := by simpa using h.clamp

/-- A condition kept by every insertion with room is kept by an accepted batch (R25). -/
theorem State.insertAll_keeps {I : State → Prop} (o : Origin)
    (hI : ∀ p s, s.ctl.mode = .run → s.Accepts p → s.HasRoom p → I s → I (s.insert o p)) (ps : List Posting)
    (s : State) (hmode : s.ctl.mode = .run) (hok : ∀ p ∈ ps, s.Accepts p)
    (hroom : placesNeeded s.keys ps ≤ Config.queueCapacity - s.occupancy) (h : I s) : I (s.insertAll o ps).2 := by
  induction ps generalizing s with
  | nil => exact h
  | cons p ps ih =>
    have hp := hok p (List.mem_cons_self ..)
    refine ih (s.insert o p) (by simpa using hmode) (fun q hq => (hok q (List.mem_cons_of_mem _ hq)).insert) ?_
      (hI p s hmode hp (State.hasRoom_of_places hroom) h)
    have hsum := State.placesNeeded_insert o p ps s
    have hgrow := State.occupancy_le_insert o p s
    omega

/-! ### The effects of requests -/

theorem State.takeConfigRead_state (body : List Byte) (s : State) : (s.takeConfigRead body).state = s := by
  unfold State.takeConfigRead; split <;> rfl

theorem State.takeQueryQueue_state (body : List Byte) (s : State) : (s.takeQueryQueue body).state = s := by
  unfold State.takeQueryQueue; dsimp only; split <;> rfl

theorem State.takeTableRead_state (body : List Byte) (s : State) : (s.takeTableRead body).state = s := by
  unfold State.takeTableRead; split
  · split <;> rfl
  · rfl
  · rfl

/-- The Link Unit `m` holds what `l` does but for notices that have left, counters and flags: the same requests wait and
are in service, and the transmitter goes on as before. -/
structure Link.Quiet (l m : Link) : Prop where
  notices : m.notices.Sublist l.notices := by exact List.Sublist.refl _
  waiting : m.waiting = l.waiting := by rfl
  service : m.service = l.service := by rfl
  restarting : l.restarting = true → m.restarting = true := by exact id
  tx : m.tx = l.tx := by rfl
  lastFrame : m.lastFrame = l.lastFrame := by rfl

/-- A condition that every request's effects keep, each in the mode that allows it and with what its checks pass. -/
structure RequestsKeep (I : State → Prop) : Prop where
  link : ∀ (l : Link) (s : State), s.link.Quiet l → I s → I { s with link := l }
  senses : ∀ (x : Bank Sense 16) (s : State), I s → I { s with senses := x }
  seq : ∀ (u : SeqUnit) (s : State), u.unit = s.seq.unit → I s → I { s with seq := u }
  lock : ∀ (flags : Byte) (s : State), I s → I { s with ctl := s.ctl.lock flags }
  layOut : ∀ (body : List Byte) (s : State), s.ctl.mode = .setup → I s → I (s.layOut body)
  setTimebase : ∀ (g : TbSettings) (s : State), s.ctl.mode = .setup → g.InRange → I s → I (s.setTimebase g)
  stageTimebase : ∀ (g : TbSettings) (s : State),
    s.ctl.mode = .run → g.InRange → g.align = s.tb.active.align → I s → I (s.stageTimebase g)
  beginRun : ∀ (holdAt resumeAt : Nat) (s : State),
    s.ctl.mode = .setup → thresholdsOk holdAt resumeAt = true → I s → I (s.beginRun holdAt resumeAt)
  endRun : ∀ s : State, s.ctl.mode = .run → I s → I s.endRun
  writeConfig : ∀ (c : ChanId) (g : ChanCfg) (s : State), g.ClampsOk → I s → I (s.writeConfig c g)
  stageConfig : ∀ (c : ChanId) (g : ChanCfg) (s : State), g.ClampsOk → I s → I (s.stageConfig c g)
  clearClamped : ∀ (c : ChanId) (s : State), I s → I (s.clearClamped c)
  insert : ∀ (o : Origin) (p : Posting) (s : State),
    s.ctl.mode = .run → s.Accepts p → s.HasRoom p → I s → I (s.insert o p)
  removeEntries : ∀ (sel : Entry → Bool) (s : State), s.ctl.mode = .run → I s → I (s.removeEntries sel)
  runBoundary : ∀ (forced quiet : Bool) (s : State), s.ctl.mode = .run → I s → I (s.runBoundary forced quiet)
  clearAccums : ∀ (mask : Half) (s : State), I s → I (s.clearAccums mask)
  clearTrips : ∀ (mask : Half) (s : State), I s → I ((s.clearLatches (s.clears mask)).settleOn (s.clears mask))
  arm : ∀ (home : LineId) (s : State), s.ctl.mode = .run → I s → I (s.arm home).2
  disarm : ∀ s : State, s.ctl.mode = .run → I s → I (State.settleGate s { s with seq := s.seq.disable })
  enterOutside : ∀ (l : LineId) (cause : EntryCause) (s : State),
    s.ctl.mode = .run → I s → I (s.enterOutside l cause).2
  beginCheck : ∀ (q : CheckParams) (s : State), s.ctl.mode = .setup → I s → I (s.beginCheck q)
  abortCheck : ∀ (reason : AbortReason) (s : State), s.ctl.mode = .check → I s → I (s.abortCheck reason)

namespace RequestsKeep

variable {I : State → Prop}

theorem takeLayout (h : RequestsKeep I) (body : List Byte) (s : State) (hm : s.ctl.mode = .setup) (hs : I s) :
    I (s.takeLayout body).state := by
  unfold State.takeLayout
  split
  · exact hs
  · exact h.layOut body s hm hs

theorem takeTimebase (h : RequestsKeep I) (body : List Byte) (s : State) (hm : s.ctl.mode = .setup ∨ s.ctl.mode = .run)
    (hs : I s) : I (s.takeTimebase body).state := by
  unfold State.takeTimebase
  split
  · exact hs
  next g hg =>
  obtain ⟨hrange, halign⟩ := State.checkTimebase_ok hg
  by_cases hrun : s.ctl.mode = .run
  · simpa [Answer.ok, hrun] using h.stageTimebase g s hrun hrange (halign hrun) hs
  · simpa [Answer.ok, hrun] using h.setTimebase g s (hm.resolve_right hrun) hrange hs

theorem takeStart (h : RequestsKeep I) (body : List Byte) (s : State) (hm : s.ctl.mode = .setup) (hs : I s) :
    I (s.takeStart body).state := by
  unfold State.takeStart
  dsimp only
  split
  · next ht => exact h.beginRun _ _ s hm ht hs
  · exact hs

theorem takeConfigWrite (h : RequestsKeep I) (body : List Byte) (s : State) (hs : I s) :
    I (s.takeConfigWrite body).state := by
  unfold State.takeConfigWrite
  split
  · exact hs
  next c g hg =>
  split
  · exact h.stageConfig c g s (configAt_ok hg) hs
  · exact h.writeConfig c g s (configAt_ok hg) hs

theorem takePost (h : RequestsKeep I) (body : List Byte) (s : State) (hm : s.ctl.mode = .run) (hs : I s) :
    I (s.takePost body).state := by
  unfold State.takePost
  split
  · exact hs
  next ps hps =>
  dsimp only
  split
  · exact hs
  next hroom =>
  exact State.insertAll_keeps .host (h.insert .host) ps s hm (State.checkRecords_ok hps) (by omega) hs

theorem takeWithdraw (h : RequestsKeep I) (body : List Byte) (s : State) (hm : s.ctl.mode = .run) (hs : I s) :
    I (s.takeWithdraw body).state := by
  unfold State.takeWithdraw
  dsimp only
  split
  · exact hs
  split
  · exact hs
  split
  · exact hs
  · exact h.removeEntries _ s hm hs

theorem takeQueryChannel (h : RequestsKeep I) (body : List Byte) (s : State) (hs : I s) :
    I (s.takeQueryChannel body).state := by
  unfold State.takeQueryChannel
  dsimp only
  split
  · exact hs
  split
  · exact hs
  · exact h.clearClamped _ s hs

theorem takeForceBoundary (h : RequestsKeep I) (body : List Byte) (s : State) (hm : s.ctl.mode = .run) (hs : I s) :
    I (s.takeForceBoundary body).state := by
  unfold State.takeForceBoundary
  dsimp only
  split
  · exact hs
  · exact h.runBoundary true _ s hm hs

theorem takeClear (h : RequestsKeep I) (body : List Byte) (s : State) (hs : I s) : I (s.takeClear body).state := by
  unfold State.takeClear
  dsimp only
  split
  · exact h.clearTrips _ s hs
  · exact h.clearAccums _ s hs
  · exact h.senses _ s hs
  · exact h.seq { s.seq with drops := 0 } { s with link := s.clearCounters.link } rfl
      (h.link s.clearCounters.link s {} hs)
  · exact hs

theorem takeQueryCapture (h : RequestsKeep I) (body : List Byte) (s : State) (hs : I s) :
    I (s.takeQueryCapture body).state := by
  unfold State.takeQueryCapture
  split
  · exact hs
  · exact h.senses _ s hs

theorem takeNotices (h : RequestsKeep I) (body : List Byte) (s : State) (hs : I s) :
    I (s.takeNotices body).state := by
  unfold State.takeNotices
  dsimp only
  split
  · exact hs
  · exact h.link _ s { notices := List.filter_sublist } hs

theorem takeLock (h : RequestsKeep I) (body : List Byte) (s : State) (hs : I s) : I (s.takeLock body).state := by
  unfold State.takeLock
  dsimp only
  split
  · exact hs
  · exact h.lock _ s hs

theorem takeTableWrite (h : RequestsKeep I) (body : List Byte) (s : State) (hs : I s) :
    I (s.takeTableWrite body).state := by
  unfold State.takeTableWrite
  split
  · exact hs
  split
  · exact hs
  · refine h.seq _ s ?_ hs
    unfold SeqUnit.writeSection
    repeat' split
    all_goals rfl

theorem takeSeqArm (h : RequestsKeep I) (body : List Byte) (s : State) (hm : s.ctl.mode = .run) (hs : I s) :
    I (s.takeSeqArm body).state := by
  unfold State.takeSeqArm
  split
  · exact hs
  split
  · exact hs
  split
  · exact hs
  · exact h.arm _ s hm hs

theorem takeSeqDisarm (h : RequestsKeep I) (body : List Byte) (s : State) (hm : s.ctl.mode = .run) (hs : I s) :
    I (s.takeSeqDisarm body).state := by
  unfold State.takeSeqDisarm
  dsimp only
  split
  · exact hs
  · exact h.disarm s hm hs

theorem takeSeqHome (h : RequestsKeep I) (body : List Byte) (s : State) (hm : s.ctl.mode = .run) (hs : I s) :
    I (s.takeSeqHome body).state := by
  unfold State.takeSeqHome
  split
  · exact hs
  split
  · exact hs
  · exact h.enterOutside _ _ s hm hs

theorem takeTrigger (h : RequestsKeep I) (body : List Byte) (s : State) (hs : I s) :
    I (s.takeTrigger body).state := by
  unfold State.takeTrigger
  dsimp only
  split
  · exact hs
  split
  · exact hs
  · exact h.seq _ s (by rfl) hs

theorem takeCheck (h : RequestsKeep I) (body : List Byte) (s : State) (hm : s.ctl.mode = .setup) (hs : I s) :
    I (s.takeCheck body).state := by
  unfold State.takeCheck
  split
  · exact hs
  · exact h.beginCheck _ s hm hs

/-- A condition that every request's effects keep is kept by the taking of a request. -/
theorem judge (h : RequestsKeep I) (f : Frame) (s : State) (hs : I s) : I (s.judge f).state := by
  rcases State.judge_cases f s with he | ⟨k, -, hmode, he⟩ <;> rw [he]
  · exact hs
  cases k with
  | identify | status | layoutRead | checkResult => exact hs
  | configRead => exact (State.takeConfigRead_state _ s).symm ▸ hs
  | queryQueue => exact (State.takeQueryQueue_state _ s).symm ▸ hs
  | tableRead => exact (State.takeTableRead_state _ s).symm ▸ hs
  | restart => exact h.link { s.link with restarting := true } s { restarting := fun _ => rfl } hs
  | layout => exact h.takeLayout _ s (inModes_setup hmode) hs
  | timebase => exact h.takeTimebase _ s (inModes_setup_or_run hmode) hs
  | start => exact h.takeStart _ s (inModes_setup hmode) hs
  | stop => exact h.endRun s (inModes_run hmode) hs
  | configWrite => exact h.takeConfigWrite _ s hs
  | lock => exact h.takeLock _ s hs
  | notices => exact h.takeNotices _ s hs
  | post => exact h.takePost _ s (inModes_run hmode) hs
  | withdraw => exact h.takeWithdraw _ s (inModes_run hmode) hs
  | queryChannel => exact h.takeQueryChannel _ s hs
  | forceBoundary => exact h.takeForceBoundary _ s (inModes_run hmode) hs
  | clear => exact h.takeClear _ s hs
  | queryCapture => exact h.takeQueryCapture _ s hs
  | tableWrite => exact h.takeTableWrite _ s hs
  | seqArm => exact h.takeSeqArm _ s (inModes_run hmode) hs
  | seqDisarm => exact h.takeSeqDisarm f.body s (inModes_run hmode) hs
  | seqHome => exact h.takeSeqHome f.body s (inModes_run hmode) hs
  | trigger => exact h.takeTrigger _ s hs
  | check => exact h.takeCheck _ s (inModes_setup hmode) hs
  | stopCheck => exact h.abortCheck .host s (inModes_check hmode) hs

end RequestsKeep
/-! ### The Link Unit goes on -/

theorem Link.builtWith_notices (l : Link) (b : Byte) : (l.builtWith b).notices = l.notices := by
  rw [Link.builtWith_eq]

theorem Link.beginNotice_sublist (l : Link) : l.beginNotice.notices.Sublist l.notices := by
  unfold Link.beginNotice
  split
  · next h => rw [h]; exact List.sublist_cons_self ..
  · next h => exact List.Sublist.refl _

theorem State.build_notices (s : State) : s.build.link.notices = s.link.notices := by
  rw [State.build_link, Link.builtWith_notices]

theorem State.mayBuild_notices (s : State) : s.mayBuild.link.notices = s.link.notices := by
  rcases State.mayBuild_link s with h | h <;> rw [h]
  rw [Link.builtWith_notices]

theorem State.beginReply_notices (s : State) : s.beginReply.link.notices = s.link.notices := by
  unfold State.beginReply
  dsimp only
  split <;> exact State.build_notices s

theorem State.noticeFirst_sublist (s : State) : s.noticeFirst.link.notices.Sublist s.link.notices := by
  rw [← State.mayBuild_notices s]
  exact Link.beginNotice_sublist _

/-- The transmitter only takes notices out of the Notice Queue (R189). -/
theorem State.kick_sublist (s : State) : s.kick.link.notices.Sublist s.link.notices := by
  unfold State.kick
  split
  · rw [State.mayBuild_notices]
  · split
    · exact List.Sublist.refl _
    · rw [State.beginReply_notices]
    · exact Link.beginNotice_sublist _
    · dsimp only
      split
      · rw [State.beginReply_notices, State.pick_link]
      · rw [← State.pick_link 2 s]; exact State.noticeFirst_sublist _

theorem State.choose_sublist (d : FrameClass) (s : State) : (s.choose d).link.notices.Sublist s.link.notices := by
  unfold State.choose
  dsimp only
  split
  · exact List.Sublist.refl _
  · rw [State.beginReply_notices]
  · exact Link.beginNotice_sublist { s.link with lastFrame := _, tx := .idle }
  · split
    · exact State.noticeFirst_sublist { s with link := { s.link with lastFrame := _, tx := .idle } }
    · rw [State.beginReply_notices]

theorem Link.accept_notices (l : Link) (f : Frame) : (l.accept f).notices = l.notices := by
  unfold Link.accept; split <;> rfl

theorem Link.breakFrame_notices (l : Link) : l.breakFrame.notices = l.notices := by
  unfold Link.breakFrame; split <;> rfl

/-! ### Events -/

/-- A condition that every event keeps; the effects of requests are taken as one. -/
structure EventsKeep (I : State → Prop) : Prop where
  link : ∀ (l : Link) (s : State), l.notices.Sublist s.link.notices → I s → I { s with link := l }
  free : ∀ (n : Nat) (s : State), I s → I { s with freeCount := n }
  pins : ∀ (p : Pins) (s : State), I s → I { s with pins := p }
  sampler : ∀ (x : Sampler) (s : State), I s → I { s with sampler := x }
  reset : ∀ (cause : ResetCause) (s : State), I s → I (s.takeReset cause)
  endStarting : ∀ (r1 r0 : Level) (s : State), s.ctl.mode = .starting → I s → I (s.endStarting r1 r0)
  readSample : ∀ (v : Levels) (s : State), I s → I (s.readSample v)
  takePin : ∀ (e : PinEvent) (s : State), I s → I (s.takePin e)
  takeFrameEnd : ∀ s : State, I s → I s.takeFrameEnd
  settleOn : ∀ (sel : ChanId → Bool) (s : State), I s → I (s.settleOn sel)
  riseOne : ∀ (c : ChanId) (x : OutPin) (s : State), I s → I (s.riseOne c x)
  driveClock : ∀ s : State, I s → I s.driveClock
  judge : ∀ (f : Frame) (s : State), I s → I (s.judge f).state

namespace EventsKeep

variable {I : State → Prop}

theorem pick (h : EventsKeep I) (n : Nat) (s : State) (hs : I s) : I (s.pick n).2 := by
  rw [State.pick_snd]; exact h.free _ s hs

/-- Whatever changes the Link Unit and the numbering of choices alone, and takes notices out at most. -/
theorem linkFree (h : EventsKeep I) {s t : State} (ht : t = { s with link := t.link, freeCount := t.freeCount })
    (hn : t.link.notices.Sublist s.link.notices) (hs : I s) : I t := by
  rw [ht]; exact h.free _ _ (h.link _ s hn hs)

theorem kick (h : EventsKeep I) (s : State) (hs : I s) : I s.kick :=
  h.linkFree (State.kick_eq s) (State.kick_sublist s) hs

theorem choose (h : EventsKeep I) (d : FrameClass) (s : State) (hs : I s) : I (s.choose d) :=
  h.linkFree (State.choose_eq d s) (State.choose_sublist d s) hs

theorem build (h : EventsKeep I) (s : State) (hs : I s) : I s.build := by
  rw [State.build_eq]; exact h.link _ s (by rw [State.build_notices]) hs

theorem answer (h : EventsKeep I) (f : Frame) (s : State) (hs : I s) : I (s.answer f) := by
  have hj : I { (s.judge f).state with
      link := { (s.judge f).state.link with
        service := some (Service.mk f (s.judge f).result.code (s.judge f).fields none) } } :=
    h.link _ _ (List.Sublist.refl _) (h.judge f s hs)
  unfold State.answer
  dsimp only
  split
  · exact h.build _ hj
  · exact hj

theorem serve (h : EventsKeep I) (s : State) (hs : I s) : I s.serve := by
  unfold State.serve
  split
  · exact h.answer _ _ (h.link _ s (List.Sublist.refl _) hs)
  · exact hs

theorem arrive (h : EventsKeep I) (f : Frame) (s : State) (hs : I s) : I (s.arrive f) :=
  h.kick _ (h.serve _ (h.link _ s (by rw [Link.accept_notices]) hs))

theorem deliver (h : EventsKeep I) (k t : Byte) (body : List Byte) (s : State) (hs : I s) : I (s.deliver k t body) := by
  unfold State.deliver
  split
  · exact hs
  · exact h.arrive _ s hs

theorem takeRx (h : EventsKeep I) (r : Rx × RxEvent) (s : State) (hs : I s) : I (s.takeRx r) := by
  have hr : I { s with link := { s.link with rx := r.1 } } := h.link _ s (List.Sublist.refl _) hs
  unfold State.takeRx
  dsimp only
  split
  · exact hr
  · exact h.link _ s (List.Sublist.refl _) hs
  · exact h.link _ s (List.Sublist.refl _) hs
  · exact h.arrive _ _ hr

theorem receive (h : EventsKeep I) (b : Byte) (s : State) (hs : I s) : I (s.receive b) := by
  unfold State.receive
  split
  · exact hs
  · exact h.takeRx _ s hs

theorem breakRx (h : EventsKeep I) (s : State) (hs : I s) : I s.breakRx := by
  unfold State.breakRx
  split
  · exact hs
  · exact h.link _ s (by rw [Link.breakFrame_notices]) hs

theorem replySent (h : EventsKeep I) (s : State) (hs : I s) : I s.replySent := by
  have hr : I { s with link := { s.link with service := none, tx := .idle, lastFrame := .reply } } :=
    h.link _ s (List.Sublist.refl _) hs
  unfold State.replySent
  dsimp only
  split
  · split
    · exact h.kick _ (h.serve _ (h.choose _ _ (h.pick _ _ hr)))
    · exact h.choose _ _ (h.serve _ (h.pick _ _ hr))
  · exact h.kick _ (h.serve _ (h.choose _ _ hr))

theorem takePins (h : EventsKeep I) (n : Nat) (es : List PinEvent) (s : State) (hs : I s) :
    I (State.takePins n es s) := by
  induction n generalizing es s with
  | zero => exact hs
  | succ n ih =>
    unfold State.takePins
    split
    · exact hs
    · dsimp only
      split
      · exact h.pick _ s hs
      · exact ih _ _ (h.takePin _ _ (h.pick _ s hs))

theorem sampleEvent (h : EventsKeep I) (v : Levels) (s : State) (hs : I s) : I (s.sampleEvent v) :=
  h.kick _ (h.takePins _ _ _ (h.readSample v s hs))

theorem frameEvent (h : EventsKeep I) (s : State) (hs : I s) : I s.frameEvent := h.kick _ (h.takeFrameEnd s hs)

theorem endStartingEvent (h : EventsKeep I) (r1 r0 : Level) (s : State) (hs : I s) :
    I (s.endStartingEvent r1 r0) := by
  unfold State.endStartingEvent
  split
  · next hover =>
    simp only [State.startingOver, Bool.and_eq_true, decide_eq_true_eq] at hover
    exact h.kick _ (h.endStarting r1 r0 s hover.1.1 hs)
  · exact hs

theorem takeDue (h : EventsKeep I) (s : State) (hs : I s) : I s.takeDue := by
  have hsample : ∀ t, I t → I t.takeSampleDue := by
    intro t ht
    unfold State.takeSampleDue
    split
    · exact h.sampleEvent _ t ht
    · exact ht
  have hframe : ∀ t, I t → I t.takeFrameDue := by
    intro t ht
    unfold State.takeFrameDue
    split
    · exact h.frameEvent t ht
    · exact ht
  have hboth : I s.takeBoth := by
    unfold State.takeBoth
    split
    · dsimp only
      split
      · exact hsample _ (hframe _ (h.pick _ s hs))
      · exact hframe _ (hsample _ (h.pick _ s hs))
    · exact hsample _ (hframe _ hs)
  exact h.settleOn _ _ (h.endStartingEvent _ _ _ hboth)

theorem clocks (h : EventsKeep I) (n : Nat) (s : State) (hs : I s) : I (State.clocks n s) := by
  induction n generalizing s with
  | zero => exact hs
  | succ n ih => exact ih _ (h.takeDue _ (h.driveClock s hs))

theorem idle (h : EventsKeep I) (s : State) (hs : I s) : I s.idle := h.clocks 1 _ (h.takeDue s hs)

theorem frameSent (h : EventsKeep I) (s t : State) (hs : I s) (he : exec .frameSent s = .next t) : I t := by
  simp only [exec, execFrameSent] at he
  split at he
  · cases he; exact hs
  · cases he; exact h.choose _ s hs
  · split at he <;> cases he
    · exact h.reset _ s hs
    · exact h.replySent s hs

theorem tick (h : EventsKeep I) (s t : State) (hs : I s) (he : exec .tick s = .next t) : I t := by
  simp only [exec, execTick] at he
  split at he <;> cases he
  · exact hs
  · exact h.driveClock _ (h.clocks _ _ (h.takeDue s hs))

/-- A condition that every event keeps is kept by every command. -/
theorem exec (h : EventsKeep I) (c : Instr) (s t : State) (hs : I s) (he : exec c s = .next t) : I t := by
  cases hc : requestFrame c with
  | some f =>
    cases (exec_eq_deliver c f s hc).symm.trans he
    exact h.deliver _ _ _ s hs
  | none =>
  cases c with
  | powerOn => cases he; exact h.reset _ s hs
  | resetPin => cases he; exact h.reset _ _ (h.pins _ s hs)
  | resetPinRelease =>
    simp only [Machine.exec, execResetPinRelease] at he
    split at he <;> cases he
    · have hpins := h.pins { s.pins with resetAsserted := false } s hs
      exact h.sampler { s.sampler with phase := 0 } _ hpins
    · exact hs
  | endOfStarting r1 r0 => cases he; exact h.endStartingEvent _ _ s hs
  | sample ss il home c => cases he; exact h.sampleEvent _ s hs
  | frameEnd => cases he; exact h.frameEvent s hs
  | checkStepEnd =>
    simp only [Machine.exec, execCheckStepEnd] at he
    split at he <;> cases he
    · exact h.frameEvent s hs
    · exact hs
  | compareMatch ch =>
    simp only [Machine.exec, execCompareMatch] at he
    split at he <;> cases he
    · exact h.settleOn _ s hs
    · exact hs
  | deadTimeExpiry ch out =>
    simp only [Machine.exec, execDeadTimeExpiry] at he
    split at he <;> cases he
    · exact hs
    · exact h.riseOne _ _ s hs
  | wantedTimeExpiry ch out =>
    simp only [Machine.exec, execWantedTimeExpiry] at he
    split at he <;> cases he
    · exact h.riseOne _ _ s hs
    · exact hs
  | framingError cause =>
    cases cause with
    | badStop => cases he; exact h.breakRx s hs
    | lenAbove b =>
      simp only [Machine.exec, execFramingError] at he
      split at he <;> cases he
      · exact h.receive b s hs
      · exact hs
  | interByteGap => cases he; exact h.breakRx s hs
  | frameComplete b =>
    simp only [Machine.exec, execFrameComplete] at he
    split at he <;> cases he
    · exact h.receive b s hs
    · exact hs
  | frameSent => exact h.frameSent s t hs he
  | byteReceived b => cases he; exact h.receive b s hs
  | tick => exact h.tick s t hs he
  | _ => cases hc

/-- A condition that every event keeps, and that does not read the queue of commands, is kept by every step. -/
theorem step (h : EventsKeep I) (hpend : ∀ (cs : List Instr) (s : State), I s → I { s with pending := cs })
    (s t : State) (hs : I s) (he : step s = .next t) : I t := by
  cases hp : s.pending with
  | nil => cases (step_of_nil s hp).symm.trans he; exact h.idle s hs
  | cons c cs => exact h.exec c _ t (hpend cs s hs) ((step_of_cons c cs s hp).symm.trans he)

end EventsKeep

end Sys2Proof.Machine
end

section
/-! SUPPORT. The queue of commands, and the two outputs of a channel: what every event leaves of them. -/

namespace Sys2Proof.Machine

/-! ### The queue of commands -/

/-- No request touches the queue of commands. -/
theorem requestsKeep_pending (p : List Instr) : RequestsKeep fun s => s.pending = p where
  link _ _ _ h := h
  senses _ _ h := h
  seq _ _ _ h := h
  lock _ _ h := h
  layOut body s _ h := by
    have hfold : ∀ (l : List IlId) (u : State),
        (l.foldl (fun s i => if (s.ils.get i).active then s.tripMembers i else s) u).pending = u.pending := by
      intro l
      induction l with
      | nil => intro u; rfl
      | cons i l ih => intro u; rw [List.foldl_cons, ih]; split <;> simp
    simp only [State.layOut, State.settle_pending, State.loadCompare_pending, State.autoTest_pending, State.tripActive,
      hfold]
    exact h
  setTimebase _ _ _ _ h := h
  stageTimebase _ _ _ _ _ h := h
  beginRun _ _ _ _ _ h := h
  endRun s _ h := by simpa [State.endRun] using h
  writeConfig _ _ _ _ h := h
  stageConfig _ _ _ _ h := h
  clearClamped _ _ h := h
  insert _ _ _ _ _ _ h := by simpa using h
  removeEntries _ _ _ h := by simpa using h
  runBoundary _ _ _ _ h := by simpa using h
  clearAccums _ _ h := h
  clearTrips _ _ h := h
  arm _ _ _ h := by simpa using h
  disarm _ _ h := h
  enterOutside _ _ _ _ h := by simpa using h
  beginCheck _ _ _ h := by simpa [State.beginCheck] using h
  abortCheck _ _ _ h := h

/-- No event touches the queue of commands. -/
theorem eventsKeep_pending (p : List Instr) : EventsKeep fun s => s.pending = p where
  link _ _ _ h := h
  free _ _ h := h
  pins _ _ h := h
  sampler _ _ h := h
  reset _ _ h := h
  endStarting _ _ _ _ h := h
  readSample _ _ h := h
  takePin _ _ h := by simpa using h
  takeFrameEnd _ h := by simpa using h
  settleOn _ _ h := h
  riseOne _ _ _ h := h
  driveClock _ h := h
  judge := (requestsKeep_pending p).judge

/-- Settles O1: a step with a command waiting is that command, and every event leaves the queue of commands. -/
theorem stepTakesFront : Obligations.StepTakesFront :=
  ⟨step_of_cons, fun c s t he => (eventsKeep_pending s.pending).exec c s t rfl he⟩

/-! ### Outputs A and B of one channel (R79) -/

/-- The outputs are apart wherever the pins of every channel have followed the state. -/
theorem State.settle_apart (s : State) : OutputsApart s.settle := by
  intro c
  rw [State.settle, State.settleOn, Bank.get_mapId]
  exact State.settledOut_apart s c _

theorem OutputsApart.of_outs {s t : State} (h : OutputsApart s) (ht : t.outs = s.outs) : OutputsApart t := by
  intro c; rw [ht]; exact h c

/-- The outputs stay apart where no channel's pins change. -/
theorem OutputsApart.of_pins {s t : State} (h : OutputsApart s)
    (ht : ∀ c, (t.outs.get c).pinA = (s.outs.get c).pinA ∧ (t.outs.get c).pinB = (s.outs.get c).pinB) :
    OutputsApart t := by
  intro c; rw [(ht c).1, (ht c).2]; exact h c

theorem Out.load_pins (o : Out) (m : ChanMode) (v : Int) (p : Nat) :
    (o.load m v p).pinA = o.pinA ∧ (o.load m v p).pinB = o.pinB := ⟨rfl, rfl⟩

theorem State.loadCompare_apart (sel : ChanId → Bool) (s : State) (h : OutputsApart s) :
    OutputsApart (s.loadCompare sel) :=
  h.of_pins fun c => by
    simp only [State.loadCompare, Bank.get_mapId]
    split <;> exact ⟨rfl, rfl⟩

theorem State.clearLatches_apart (sel : ChanId → Bool) (s : State) (h : OutputsApart s) :
    OutputsApart (s.clearLatches sel) :=
  State.loadCompare_apart sel _ (h.of_outs rfl)

theorem State.rearm_apart (s : State) (h : OutputsApart s) : OutputsApart s.rearm :=
  State.settleOn_apart _ _ (State.clearLatches_apart _ s h)

theorem State.leaveCheck_apart (st : CheckStatus) (r : AbortReason) (s : State) : OutputsApart (s.leaveCheck st r) := by
  intro c
  simp only [State.leaveCheck, State.offer_outs]
  exact State.settle_apart _ c

theorem State.enterOutside_apart (l : LineId) (cause : EntryCause) (s : State) (h : OutputsApart s) :
    OutputsApart (s.enterOutside l cause).2 :=
  State.settleOn_apart _ _ (h.of_outs (by simp))

theorem State.takeEdge_apart (c : ChanId) (l : Level) (s : State) (h : OutputsApart s) :
    OutputsApart (s.takeEdge c l) := by
  have hcap : ∀ (d : EdgeDir) (t : State), OutputsApart t → OutputsApart (t.capture c d) :=
    fun _ _ ht => ht.of_outs (by simp)
  have hstop : ∀ t : State, OutputsApart t → OutputsApart (t.endStop c) := by
    intro t ht
    unfold State.endStop
    split
    · exact State.settleOn_apart _ _ (ht.of_outs rfl)
    · exact ht
  have hmove : OutputsApart (s.moveSense c l) := h.of_outs rfl
  unfold State.takeEdge
  dsimp only
  split
  · unfold State.edgeInRun
    dsimp only
    split
    · split
      · exact hmove
      · exact hcap _ _ hmove
      · exact hstop _ (hcap _ _ hmove)
    · exact hmove
  · split
    · exact hmove.of_outs rfl
    · exact hmove
  · exact hmove
  · exact hmove

theorem State.takeIl_apart (i : IlId) (l : Level) (s : State) (h : OutputsApart s) : OutputsApart (s.takeIl i l) := by
  have hmove : OutputsApart (s.moveIl i l) := h.of_outs rfl
  have htrip : OutputsApart ((s.moveIl i l).tripMembers i) := hmove.of_outs (by simp)
  unfold State.takeIl
  dsimp only
  split
  · unfold State.activate
    split
    · exact hmove
    · exact State.leaveCheck_apart _ _ _
    · exact State.settleOn_apart _ _ htrip
    · exact State.settleOn_apart _ _ htrip
  · unfold State.ilRelease
    split
    · exact State.rearm_apart _ hmove
    · exact hmove

theorem State.takeHome_apart (l : Level) (s : State) (h : OutputsApart s) : OutputsApart (s.takeHome l) := by
  cases l with
  | high => exact h.of_outs (by simp [State.takeHome])
  | low =>
    unfold State.takeHome State.homeLow
    dsimp only
    split
    · split
      · exact h.of_outs rfl
      · next home _ =>
        have henter := State.enterOutside_apart home .homePin
          { s with home := { s.home with filtered := .low, run := 0 } } (h.of_outs rfl)
        exact fun c => henter c
    · exact h.of_outs rfl

/-- A boundary ends with every channel's pins following the state. -/
theorem State.runBoundary_apart (forced quiet : Bool) (s : State) : OutputsApart (s.runBoundary forced quiet) := by
  intro c
  simp only [State.runBoundary, State.settleOrder_outs, State.outputWork]
  exact State.settle_apart _ c

theorem requestsKeep_apart : RequestsKeep OutputsApart where
  link _ _ _ h := h.of_outs rfl
  senses _ _ h := h.of_outs rfl
  seq _ _ _ h := h.of_outs rfl
  lock _ _ h := h.of_outs rfl
  layOut _ _ _ _ := State.settle_apart _
  setTimebase _ _ _ _ h := h.of_outs rfl
  stageTimebase _ _ _ _ _ h := h.of_outs rfl
  beginRun _ _ _ _ _ _ := State.settle_apart _
  endRun _ _ _ := State.settle_apart _
  writeConfig _ _ _ _ h := State.settleOn_apart _ _ (h.of_outs rfl)
  stageConfig _ _ _ _ h := h.of_outs rfl
  clearClamped _ _ h := h.of_outs rfl
  insert _ _ _ _ _ _ h := h.of_outs (by simp)
  removeEntries _ _ _ h := h.of_outs (by simp)
  runBoundary _ _ _ _ _ := State.runBoundary_apart _ _ _
  clearAccums _ _ h := h.of_outs rfl
  clearTrips _ _ h := State.settleOn_apart _ _ (State.clearLatches_apart _ _ h)
  arm home s _ h := by
    have hin := State.enterOutside_apart home .arm
      { s with seq := { s.seq with unit := .running, home := some home, latches := .empty, held := .empty } } (h.of_outs rfl)
    unfold State.arm
    dsimp only
    split
    · exact hin.of_outs rfl
    · exact hin
  disarm _ _ h := State.settleOn_apart _ _ (h.of_outs rfl)
  enterOutside _ _ _ _ h := State.enterOutside_apart _ _ _ h
  beginCheck _ _ _ _ := State.settle_apart _
  abortCheck _ _ _ _ := State.leaveCheck_apart _ _ _

theorem State.takeFrameEnd_apart (s : State) (h : OutputsApart s) : OutputsApart s.takeFrameEnd := by
  unfold State.takeFrameEnd
  dsimp only
  split
  · exact State.runBoundary_apart _ _ _
  · exact State.settle_apart _
  · exact h.of_outs rfl

/-- An expiry raises one output at most, under the partner guard (R79). -/
theorem State.riseOne_apart (ch : ChanId) (x : OutPin) (s : State) (h : OutputsApart s) :
    OutputsApart (s.riseOne ch x) := by
  intro c
  unfold State.riseOne
  dsimp only
  rw [Bank.get_set]
  split
  case isFalse => exact h c
  case isTrue hc =>
  generalize hp : s.pattern ch ((s.outs.get ch).refresh s.tb) = p
  have htake : ¬((((s.outs.get ch).refresh s.tb).take (s.chans.get ch).mode p).pinA = .active
      ∧ (((s.outs.get ch).refresh s.tb).take (s.chans.get ch).mode p).pinB = .active) := by
    cases p with
    | released => simp [Out.take]
    | wants a b d =>
      simp only [Out.take, PinDrive.drop_active]
      rintro ⟨⟨-, rfl⟩, -, rfl⟩
      exact State.pattern_apart s ch _ d hp
  generalize ((s.outs.get ch).refresh s.tb).take (s.chans.get ch).mode p = o at htake
  cases x with
  | a =>
    dsimp only [Out.riseA]
    split
    · next hr => exact fun hb => ((Out.mayRiseA_iff _ _ _).1 hr).2.1 hb.2
    · exact htake
  | b =>
    dsimp only [Out.riseB]
    split
    · next hr => exact fun ha => ((Out.mayRiseB_iff _ _ _).1 hr).2.1 ha.1
    · exact htake

theorem eventsKeep_apart : EventsKeep OutputsApart where
  link _ _ _ h := h.of_outs rfl
  free _ _ h := h.of_outs rfl
  pins _ _ h := h.of_outs rfl
  sampler _ _ h := h.of_outs rfl
  reset _ _ _ := by intro c; simp [State.takeReset, State.reset, Out.reset]
  endStarting _ _ _ _ _ := State.settle_apart _
  readSample _ _ h := h.of_outs rfl
  takePin e s h := by
    cases e with
    | edge c l => exact State.takeEdge_apart c l s h
    | interlock i l => exact State.takeIl_apart i l s h
    | home l => exact State.takeHome_apart l s h
  takeFrameEnd := State.takeFrameEnd_apart
  settleOn _ _ h := State.settleOn_apart _ _ h
  riseOne := State.riseOne_apart
  driveClock _ h := h.of_pins fun c => by simp [State.driveClock, Out.clock]
  judge := requestsKeep_apart.judge

/-- Settles O53: no pattern wants both outputs and an output becomes ACTIVE under the partner guard alone, so every
event that moves pins leaves the two apart. -/
theorem outputsStayApart : Obligations.OutputsStayApart :=
  eventsKeep_apart.step fun _ _ h => h.of_outs rfl

end Sys2Proof.Machine
end

section
/-! SUPPORT. The units' own operations as steps of an invariant: a condition that each of them keeps is kept by every
request and every event. -/

namespace Sys2Proof.Machine

/-- `t` differs from `s` at most in what no invariant of the units reads: the input side, the outputs, accumulators,
clamped flags, the Check Engine, the Sequence Unit but for its unit state; and in the Link Unit what is quiet there. -/
structure Quiet (s t : State) : Prop where
  tb : t.tb = s.tb := by rfl
  queue : t.queue = s.queue := by rfl
  mode : t.ctl.mode = s.ctl.mode := by rfl
  unit : t.seq.unit = s.seq.unit := by rfl
  trips : t.trips = s.trips := by rfl
  ils : ∀ i, (t.ils.get i).active = (s.ils.get i).active := by exact fun _ => rfl
  chans : ∀ c, t.chans.get c = { s.chans.get c with clamped := (t.chans.get c).clamped } := by exact fun _ => rfl
  link : s.link.Quiet t.link := by exact {}

/-- A channel's levels, clamps and configurations are in range (R47, R54). -/
structure Channel.Sound (ch : Channel) : Prop where
  act : ch.act.Within
  lo : ch.mode ≠ .directional → ch.act.lo = 0
  cfg : ch.cfg.ClampsOk
  pend : ∀ g, ch.pendCfg = some g → g.ClampsOk

/-- A channel keeps its mode and its membership, and what is in range stays so. -/
structure Channel.Follows (old new : Channel) : Prop where
  mode : new.mode = old.mode := by rfl
  member : new.member = old.member := by rfl
  sound : old.Sound → new.Sound

/-- The Sequence Unit may be at work: the mode is RUN, or the unit is not DISABLED. -/
def State.InRun (s : State) : Prop := s.ctl.mode = .run ∨ s.seq.unit ≠ .disabled

/-- Notices may be offered: the part has left STARTING. -/
def State.Live (s : State) : Prop := s.ctl.mode ≠ .starting ∨ s.seq.unit ≠ .disabled

theorem State.InRun.live {s : State} (h : s.InRun) : s.Live := h.imp (fun hm => by simp [hm]) id

/-- The queue of an accepted START (R32). -/
def PostingQueue.started (holdAt resumeAt : Nat) : PostingQueue :=
  { entries := [], hold := false, holdAt := holdAt, resumeAt := resumeAt }

/-- The Timebase at an accepted START (R14). -/
def Timebase.started (t : Timebase) : Timebase := { t.go with bnum := 0, rep := t.active.rep }

/-- The channels' latches after a LAYOUT: UNUSED channels' clear, members of ACTIVE interlocks trip (R116). -/
def State.laidOut (body : List Byte) (s : State) : State :=
  ((s.layChannels body).layInterlocks body).clearCaptures.dropUnusedTrips.tripActive

/-- A condition that each operation of the units keeps. -/
structure UnitsKeep (I : State → Prop) : Prop where
  quiet : ∀ s t : State, Quiet s t → I s → I t
  startUp : ∀ (cause : ResetCause) (rate : BitVec 2) (s : State), s.ctl.mode = .starting → I s →
    I { s with ctl := { s.ctl with mode := .setup }, link := s.link.offer (.ready cause rate) }
  offer : ∀ (o : Occurrence) (s : State), o.kind ≠ 0 → s.Live → I s → I (s.offer o)
  reorder : ∀ (l : List Notice) (s : State), l.Perm s.link.notices → I s →
    I { s with link := { s.link with notices := l } }
  unit : ∀ (u : SeqUnit) (s : State), s.InRun ∨ u.unit = .disabled → I s → I { s with seq := u }
  insert : ∀ (o : Origin) (p : Posting) (s : State), s.InRun → s.Accepts p → s.HasRoom p → I s → I (s.insert o p)
  removeEntries : ∀ (sel : Entry → Bool) (s : State), s.ctl.mode = .run → I s → I (s.removeEntries sel)
  countdown : ∀ s : State, s.ctl.mode = .run → I s → I s.countdown
  channels : ∀ (b : Bank Channel 16) (s : State), (∀ c, (s.chans.get c).Follows (b.get c)) → I s →
    I { s with chans := b }
  release : ∀ before s : State, (∀ c, (s.chans.get c).mode = (before.chans.get c).mode) → I before → I s →
    I (s.applyReleased before.dueEntries)
  clearLatches : ∀ (sel : ChanId → Bool) (s : State), (∀ c, sel c = true → s.clearable c = true) → I s →
    I (s.clearLatches sel)
  trip : ∀ (i : IlId) (l : Level) (s : State), s.ctl.mode ≠ .starting → I s → I ((s.moveIl i l).tripMembers i)
  moveIl : ∀ (i : IlId) (l : Level) (s : State),
    s.ctl.mode = .starting ∨ ((s.moveIl i l).ils.get i).active = false → I s → I (s.moveIl i l)
  layOut : ∀ (body : List Byte) (s : State), s.ctl.mode = .setup → I s → I (s.laidOut body)
  frameEndDue : ∀ (b : Bool) (s : State), I s → I { s with tb := { s.tb with frameEndDue := b } }
  clockTimebase : ∀ s : State, I s → I { s with tb := s.tb.clock }
  boundary : ∀ (forced : Bool) (s : State), s.ctl.mode = .run → I s → I { s with tb := s.tb.boundary forced }
  restart : ∀ s : State, s.ctl.mode = .check → I s → I { s with tb := s.tb.restart }
  setTimebase : ∀ (g : TbSettings) (s : State), s.ctl.mode = .setup → g.InRange → I s → I (s.setTimebase g)
  stageTimebase : ∀ (g : TbSettings) (s : State),
    s.ctl.mode = .run → g.InRange → g.align = s.tb.active.align → I s → I (s.stageTimebase g)
  goRun : ∀ (holdAt resumeAt : Nat) (s : State), s.ctl.mode = .setup → thresholdsOk holdAt resumeAt = true → I s →
    I { s with queue := .started holdAt resumeAt, tb := s.tb.started, ctl := { s.ctl with mode := .run } }
  stopRun : ∀ s : State, s.ctl.mode = .run → s.queue.entries = [] → s.seq.unit = .disabled → I s →
    I { s with tb := s.tb.stop, ctl := { s.ctl with mode := .setup } }
  goCheck : ∀ s : State, s.ctl.mode = .setup → I s →
    I { s with tb := s.tb.go, ctl := { s.ctl with mode := .check } }
  stopCheck : ∀ s : State, s.ctl.mode = .check → I s →
    I { s with tb := s.tb.halt, ctl := { s.ctl with mode := .setup } }

/-! ### Channels that follow -/

theorem Channel.Follows.refl (ch : Channel) : ch.Follows ch where
  sound h := h

theorem Channel.Follows.trans {a b c : Channel} (h : a.Follows b) (g : b.Follows c) : a.Follows c where
  mode := g.mode.trans h.mode
  member := g.member.trans h.member
  sound x := g.sound (h.sound x)

theorem ActiveSet.Within.stopped {a : ActiveSet} (h : a.Within) : a.stopped.Within := by
  obtain ⟨h1, h2, h3, h4, -, -, -⟩ := h
  exact ⟨h1, h2, h3, h4, h2, h3, nofun⟩

theorem ActiveSet.Within.no_ramp {a : ActiveSet} (h : a.Within) (d : Drive) :
    ({ a with drive := d, ramp := none } : ActiveSet).Within := by
  obtain ⟨h1, h2, h3, h4, h5, h6, -⟩ := h
  exact ⟨h1, h2, h3, h4, h5, h6, nofun⟩

/-- A ramp step stays between the level and the target (R62). -/
theorem Ramp.move_between (r : Ramp) (v lo hi : Int) (hv : lo ≤ v ∧ v ≤ hi) (ht : lo ≤ r.target ∧ r.target ≤ hi) :
    lo ≤ r.move v ∧ r.move v ≤ hi := by
  unfold Ramp.move
  split
  · exact ht
  · split <;> omega

theorem ActiveSet.Within.step {a : ActiveSet} (h : a.Within) : a.step.Within := by
  unfold ActiveSet.step
  split
  · exact h
  next r hr =>
  obtain ⟨h1, h2, h3, h4, h5, h6, h7⟩ := h
  obtain ⟨m1, m2⟩ := r.move_between a.level a.lo a.hi ⟨h5, h6⟩ (h7 r hr)
  refine ⟨h1, h2, h3, h4, m1, m2, fun r' hr' => ?_⟩
  dsimp only at hr'
  split at hr'
  · cases hr'
  · cases hr'; exact h7 r hr

theorem Channel.follows_halt (ch : Channel) : ch.Follows ch.halt where
  sound h := ⟨h.act.stopped, h.lo, h.cfg, h.pend⟩

theorem Channel.follows_endStopped (ch : Channel) : ch.Follows ch.endStopped where
  sound h := ⟨h.act.no_ramp _, h.lo, h.cfg, h.pend⟩

theorem Channel.follows_step (ch : Channel) : ch.Follows { ch with act := ch.act.step } where
  sound h := ⟨h.act.step, fun hm => by
    have hlo : ch.act.step.lo = ch.act.lo := by unfold ActiveSet.step; split <;> rfl
    exact hlo.trans (h.lo hm), h.cfg, h.pend⟩

theorem Channel.follows_adopt (ch : Channel) : ch.Follows ch.adopt := by
  unfold Channel.adopt
  split
  · exact .refl ch
  next g hg => exact { sound := fun h => ⟨h.act, h.lo, h.pend g hg, fun g' hg' => by simp at hg'⟩ }

theorem Channel.startSet_within {ch : Channel} (h : ch.cfg.ClampsOk) : ch.startSet.Within := by
  obtain ⟨h1, h2, h3, h4⟩ := h
  refine ⟨?_, ?_, h3, h4, ?_, h3, nofun⟩ <;> simp only [Channel.startSet, Channel.defaultLo] <;> split <;> omega

theorem Channel.follows_restart (ch : Channel) : ch.Follows ch.restart where
  sound h := ⟨Channel.startSet_within h.cfg, fun hm => by
    show ch.defaultLo = 0
    exact if_neg hm, h.cfg, h.pend⟩

theorem Channel.follows_cfg (ch : Channel) {g : ChanCfg} (hg : g.ClampsOk) : ch.Follows { ch with cfg := g } where
  sound h := ⟨h.act, h.lo, hg, h.pend⟩

theorem Channel.follows_pendCfg (ch : Channel) {g : ChanCfg} (hg : g.ClampsOk) :
    ch.Follows { ch with pendCfg := some g } where
  sound h := ⟨h.act, h.lo, h.cfg, fun g' hg' => by cases hg'; exact hg⟩

/-! ### New notices in a free order -/

/-- The free order of new notices is an order of the same notices (R188). -/
theorem orderNew_perm (fuel : Nat) (l : List Notice) (s : State) : (orderNew fuel l s).1.Perm l := by
  induction fuel generalizing l s with
  | zero => exact .refl _
  | succ n ih =>
    unfold orderNew
    dsimp only
    split
    · exact .refl _
    next x hx =>
    obtain ⟨hlt, rfl⟩ := List.getElem?_eq_some_iff.1 hx
    exact ((ih _ _).cons _).trans (List.getElem_cons_eraseIdx_perm hlt)

namespace UnitsKeep

variable {I : State → Prop}

theorem settleOn (h : UnitsKeep I) (sel : ChanId → Bool) (s : State) (hs : I s) : I (s.settleOn sel) :=
  h.quiet s _ {} hs

theorem settle (h : UnitsKeep I) (s : State) (hs : I s) : I s.settle := h.quiet s _ {} hs

theorem loadCompare (h : UnitsKeep I) (sel : ChanId → Bool) (s : State) (hs : I s) : I (s.loadCompare sel) :=
  h.quiet s _ {} hs

theorem autoTest (h : UnitsKeep I) (s : State) (hs : I s) : I s.autoTest := by
  refine h.clearLatches _ s (fun c hc => ?_) hs
  simp only [State.rearmable, Bool.and_eq_true] at hc
  exact hc.1.2

theorem rearm (h : UnitsKeep I) (s : State) (hs : I s) : I s.rearm := h.settleOn _ _ (h.autoTest s hs)

theorem settleOrder (h : UnitsKeep I) (old : Nat) (s : State) (hs : I s) : I (s.settleOrder old) := by
  have hperm : (s.link.notices.take old
      ++ (orderNew (s.link.notices.drop old).length (s.link.notices.drop old) s).1).Perm s.link.notices := by
    conv_rhs => rw [← List.take_append_drop old s.link.notices]
    exact (orderNew_perm _ _ s).append_left _
  unfold State.settleOrder
  dsimp only
  rw [orderNew_state]
  exact h.quiet _ _ {} (h.reorder _ s hperm hs)

/-! ### The line sequence -/

theorem dropPosting (h : UnitsKeep I) (l : LineId) (s : State) (hrun : s.InRun) (hs : I s) : I (s.dropPosting l) :=
  h.offer _ _ (by simp [Occurrence.kind]) hrun.live (h.quiet s _ {} hs)

theorem placePosting (h : UnitsKeep I) (l : LineId) (r : PostRec) (s : State) (hrun : s.InRun) (hs : I s) :
    I (s.placePosting l r).2 := by
  unfold State.placePosting
  split
  · exact h.dropPosting l s hrun hs
  next p hp =>
  cases hl : s.latched p.channel with
  | true => simpa using h.dropPosting l s hrun hs
  | false =>
    by_cases hroom : (s.queue.holdsKey p || decide (s.occupancy < Config.queueCapacity)) = true
    · simp only [Bool.false_eq_true, if_false, hroom, if_true]
      exact h.insert _ p s hrun (State.checkEntryPosting_ok hp hl) (by simpa [State.HasRoom] using hroom) hs
    · simp only [Bool.false_eq_true, if_false, hroom]
      exact h.dropPosting l s hrun hs

end UnitsKeep

theorem State.dropPosting_unit (l : LineId) (s : State) : (s.dropPosting l).seq.unit = s.seq.unit := rfl

theorem State.placePosting_unit (l : LineId) (r : PostRec) (s : State) :
    (s.placePosting l r).2.seq.unit = s.seq.unit := by
  unfold State.placePosting
  repeat' split
  all_goals simp [State.dropPosting_unit]

theorem State.placePostings_unit (l : LineId) (rs : List PostRec) (s : State) :
    (s.placePostings l rs).2.seq.unit = s.seq.unit := by
  induction rs generalizing s with
  | nil => rfl
  | cons r rs ih =>
    show (State.placePostings l rs (s.placePosting l r).2).2.seq.unit = _
    rw [ih, State.placePosting_unit]

theorem State.enterLine_unit (l : LineId) (cause : EntryCause) (s : State) :
    (s.enterLine l cause).2.seq.unit = s.seq.unit := by
  simp only [State.enterLine, State.offer_seq, State.placePostings_unit]
  rfl

/-- The state after the test of a step that ends (R159, R160). -/
def State.tested (q : CheckParams) (p : Position) (s : State) : State :=
  match s.stepFailure q p with
  | some f => { s with check := s.check.fail f }
  | none => s

theorem State.endStep_eq (q : CheckParams) (p : Position) (s : State) :
    s.endStep q p =
      match stepAfter p.step (stepsOf p.pass ((s.tested q p).chans.get (visitChannel q.order p.place)).mode) with
      | some st => (s.tested q p).beginStep q p.pass p.place st
      | none => State.nextVisit q (q.visitsAfter p) (s.tested q p) := rfl

namespace UnitsKeep

variable {I : State → Prop}

theorem placePostings (h : UnitsKeep I) (l : LineId) (rs : List PostRec) (s : State) (hrun : s.InRun) (hs : I s) :
    I (s.placePostings l rs).2 := by
  induction rs generalizing s with
  | nil => exact hs
  | cons r rs ih =>
    refine ih (s.placePosting l r).2 ?_ (h.placePosting l r s hrun hs)
    simpa [State.InRun, State.placePosting_unit] using hrun

theorem enterLine (h : UnitsKeep I) (l : LineId) (cause : EntryCause) (s : State) (hrun : s.InRun) (hs : I s) :
    I (s.enterLine l cause).2 := by
  have hplace := h.placePostings l (s.seq.table.get l).entryPostings { s with seq := s.seq.enter l cause } hrun
    (h.quiet s _ {} hs)
  refine h.offer _ _ (by simp [Occurrence.kind]) ?_ hplace
  have hunit : (s.seq.enter l cause).unit = s.seq.unit := rfl
  have hlive := hrun.live
  unfold State.Live at hlive ⊢
  rwa [State.placePostings_ctl, State.placePostings_unit, hunit]

theorem enterOutside (h : UnitsKeep I) (l : LineId) (cause : EntryCause) (s : State) (hrun : s.InRun) (hs : I s) :
    I (s.enterOutside l cause).2 :=
  h.settleOn _ _ (h.enterLine l cause s hrun hs)

theorem evaluate (h : UnitsKeep I) (s : State) (hs : I s) : I s.evaluate := by
  unfold State.evaluate
  split
  case isFalse => exact hs
  case isTrue hunit =>
  have hrun : s.InRun := .inr (by simp [hunit])
  dsimp only
  split
  · exact h.quiet s _ {} hs
  · split
    · exact h.quiet _ _ {} (h.enterLine _ _ s hrun hs)
    · exact h.quiet s _ {} hs

theorem homeLow (h : UnitsKeep I) (s : State) (hs : I s) : I s.homeLow := by
  unfold State.homeLow
  split
  case isFalse => exact hs
  case isTrue hunit =>
  split
  · exact hs
  next l _ =>
  have hrun : s.InRun := .inr (by simp [hunit])
  refine h.unit _ _ (.inl ?_) (h.enterOutside l .homePin s hrun hs)
  have hk : (s.enterOutside l .homePin).2.seq.unit = s.seq.unit := State.enterLine_unit l _ s
  exact .inr (by simp [hk, hunit])

theorem homeHigh (h : UnitsKeep I) (s : State) (hs : I s) : I s.homeHigh := by
  unfold State.homeHigh
  split
  · next hunit => exact h.unit _ s (.inl (.inr (by simp [hunit]))) hs
  · exact hs

theorem arm (h : UnitsKeep I) (home : LineId) (s : State) (hm : s.ctl.mode = .run) (hs : I s) : I (s.arm home).2 := by
  let u : SeqUnit := { s.seq with unit := .running, home := some home, latches := .empty, held := .empty }
  have hin : I ({ s with seq := u }.enterOutside home .arm).2 :=
    h.enterOutside home .arm _ (.inl hm) (h.unit u s (.inl (.inl hm)) hs)
  unfold State.arm
  dsimp only
  split
  · exact h.unit _ _ (.inl (.inl (by simpa using hm))) hin
  · exact hin

/-! ### Boundaries -/

theorem offerIf (h : UnitsKeep I) (b : Bool) (o : Occurrence) (s : State) (ho : o.kind ≠ 0) (hl : s.Live) (hs : I s) :
    I (s.offerIf b o) := by
  unfold State.offerIf
  split
  · exact h.offer o s ho hl hs
  · exact hs

theorem accumulate (h : UnitsKeep I) (before s : State) (hl : s.Live) (hs : I s) : I (State.accumulate before s) := by
  have hfold : ∀ (l : List ChanId) (t : State), t.Live → I t → I (l.foldl before.offerAddition t) := by
    intro l
    induction l with
    | nil => exact fun t _ ht => ht
    | cons c l ih =>
      intro t htl ht
      refine ih _ (by simpa [State.Live] using htl) ?_
      exact h.offerIf _ _ _ (by simp [Occurrence.kind]) (by simpa [State.Live] using htl)
        (h.offerIf _ _ t (by simp [Occurrence.kind]) htl ht)
  have hunit : (s.seq.hold 0 (chanMask before.accCrosses)).unit = s.seq.unit := by
    unfold SeqUnit.hold; split <;> rfl
  refine hfold _ _ ?_ (h.quiet s _ { unit := hunit } hs)
  unfold State.Live at hl ⊢
  rwa [hunit]

theorem channelWork (h : UnitsKeep I) (before s : State) (release : Bool) (hc : s.chans = before.chans)
    (hb : I before) (hs : I s) : I (State.channelWork before release s) := by
  have hadopt : I s.adoptConfigs := by
    refine h.quiet { s with chans := s.adoptConfigs.chans } _ {} (h.channels _ s (fun c => ?_) hs)
    simp only [State.adoptConfigs, Bank.get_mapId]
    exact Channel.follows_adopt _
  have hrel : I (if release then s.adoptConfigs.applyReleased before.dueEntries else s) := by
    split
    · refine h.release before _ (fun c => ?_) hb hadopt
      simp only [State.adoptConfigs, Bank.get_mapId, (Channel.follows_adopt _).mode, hc]
    · exact hs
  unfold State.channelWork
  dsimp only
  generalize (if release then s.adoptConfigs.applyReleased before.dueEntries else s) = r at hrel
  have hsteps : I (State.rampSteps before r) := by
    refine h.channels _ r (fun c => ?_) hrel
    simp only [Bank.get_mapId]
    split
    · exact Channel.follows_step _
    · exact .refl _
  refine h.quiet _ _ { unit := ?_ } hsteps
  unfold SeqUnit.hold
  split <;> rfl

theorem sequenceWork (h : UnitsKeep I) (release : Bool) (s : State) (hs : I s) : I (s.sequenceWork release) := by
  refine h.evaluate _ ?_
  split
  · refine h.quiet s _ { unit := ?_ } hs
    unfold SeqUnit.countDwell
    split <;> rfl
  · exact hs

theorem timebaseWork (h : UnitsKeep I) (forced quiet : Bool) (s : State) (hm : s.ctl.mode = .run) (hs : I s) :
    I (s.timebaseWork forced quiet) :=
  h.offerIf _ _ _ (by simp [Occurrence.kind]) (.inl (by simp [hm])) (h.boundary forced s hm hs)

/-- A condition that the units' operations keep is kept by a whole boundary. -/
theorem runBoundary (h : UnitsKeep I) (forced quiet : Bool) (s : State) (hm : s.ctl.mode = .run) (hs : I s) :
    I (s.runBoundary forced quiet) := by
  have h1 : I (s.resumeOuts.timebaseWork forced quiet) := h.timebaseWork _ _ _ (by simpa using hm) (h.quiet s _ {} hs)
  unfold State.runBoundary
  dsimp only
  generalize he1 : s.resumeOuts.timebaseWork forced quiet = s1 at h1
  have hm1 : s1.ctl.mode = .run := by rw [← he1]; simpa using hm
  have hc1 : s1.chans = s.chans := by rw [← he1]; simp
  have h2 : I (if s.tb.releases forced then s1.countdown else s1) := by
    split
    · exact h.countdown s1 hm1 h1
    · exact h1
  generalize he2 : (if s.tb.releases forced then s1.countdown else s1) = s2 at h2
  have hm2 : s2.ctl.mode = .run ∧ s2.chans = s.chans := by
    rw [← he2]; split <;> simp [hm1, hc1]
  have h4 := h.channelWork s _ (s.tb.releases forced) (by simp [hm2.2]) hs
    (h.accumulate s s2 (.inl (by simp [hm2.1])) h2)
  refine h.settleOrder _ _ (h.settle _ (h.loadCompare _ _ (h.sequenceWork _ _ ?_)))
  split
  · exact h.autoTest _ h4
  · exact h4

/-! ### Checks -/

theorem leaveCheck (h : UnitsKeep I) (st : CheckStatus) (r : AbortReason) (s : State) (hm : s.ctl.mode = .check)
    (hs : I s) : I (s.leaveCheck st r) := by
  have hstop := h.quiet _
    { s with
      check := { s.check with running := false, status := st, reason := r, position := none }
      ctl := { s.ctl with mode := .setup }
      tb := s.tb.halt } {} (h.stopCheck s hm hs)
  unfold State.leaveCheck
  dsimp only
  exact h.offer _ _ (by simp [Occurrence.kind]) (.inl (by simp)) (h.settle _ (h.autoTest _ hstop))

theorem beginStep (h : UnitsKeep I) (q : CheckParams) (p : Pass) (k : Nat) (st : CheckStep) (s : State) (hs : I s) :
    I (s.beginStep q p k st) := by
  refine h.quiet s _ ?_ hs
  unfold State.beginStep
  dsimp only
  split <;> exact {}

theorem nextVisit (h : UnitsKeep I) (q : CheckParams) (vs : List (Pass × Nat)) (s : State) (hm : s.ctl.mode = .check)
    (hs : I s) : I (State.nextVisit q vs s) := by
  induction vs generalizing s with
  | nil => exact h.leaveCheck _ _ s hm hs
  | cons v vs ih =>
    unfold State.nextVisit
    dsimp only
    split
    · exact ih _ hm (h.quiet s _ {} hs)
    · split
      · exact ih _ hm hs
      · exact h.beginStep _ _ _ _ s hs

theorem endStep (h : UnitsKeep I) (q : CheckParams) (p : Position) (s : State) (hm : s.ctl.mode = .check) (hs : I s) :
    I (s.endStep q p) := by
  have htested : I (s.tested q p) ∧ (s.tested q p).ctl.mode = .check := by
    unfold State.tested
    split
    · exact ⟨h.quiet s _ {} hs, hm⟩
    · exact ⟨hs, hm⟩
  rw [State.endStep_eq]
  split
  · exact h.beginStep _ _ _ _ _ htested.1
  · exact h.nextVisit _ _ _ htested.2 htested.1

theorem checkFrame (h : UnitsKeep I) (s : State) (hm : s.ctl.mode = .check) (hs : I s) : I s.checkFrame := by
  have hr := h.quiet _ { s with
    tb := s.tb.restart
    check := { s.check with frameIndex := min (s.check.frameIndex + 1) 65535 } } {} (h.restart s hm hs)
  refine h.settle _ ?_
  unfold State.checkBoundary
  dsimp only
  split
  · split
    · exact h.endStep _ _ _ hm hr
    · exact h.quiet _ _ {} hr
  · exact hr

/-! ### Requests and events -/

theorem laidOut_keeps (h : UnitsKeep I) (body : List Byte) (s : State) (hm : s.ctl.mode = .setup) (hs : I s) :
    I (s.layOut body) :=
  h.settle _ (h.loadCompare _ _ (h.quiet _ _ {} (h.autoTest _ (h.layOut body s hm hs))))

theorem beginRun (h : UnitsKeep I) (holdAt resumeAt : Nat) (s : State) (hm : s.ctl.mode = .setup)
    (ht : thresholdsOk holdAt resumeAt = true) (hs : I s) : I (s.beginRun holdAt resumeAt) := by
  have hgo := h.goRun holdAt resumeAt s hm ht hs
  have hch := h.channels (s.chans.mapId fun _ ch => if ch.used then ch.restart else ch) _ (fun c => by
    simp only [Bank.get_mapId]
    split
    · exact Channel.follows_restart _
    · exact .refl _) hgo
  exact h.settle _ (h.loadCompare _ _ (h.quiet _ _ {} hch))

theorem endRun (h : UnitsKeep I) (s : State) (hm : s.ctl.mode = .run) (hs : I s) : I s.endRun := by
  have h1 := h.removeEntries (fun _ => true) { s with seq := s.seq.disable } hm (h.unit s.seq.disable s (.inr rfl) hs)
  generalize ht : State.removeEntries (fun _ => true) { s with seq := s.seq.disable } = t at h1
  have hte : t.queue.entries = [] ∧ t.ctl.mode = .run ∧ t.seq.unit = .disabled := by
    rw [← ht, State.removeEntries_eq]
    simp [afterRemoval, hm, SeqUnit.disable]
  have h2 := h.channels (t.adoptConfigs.chans.mapId fun _ ch => if ch.used then ch.halt else ch) t (fun c => by
    simp only [State.adoptConfigs, Bank.get_mapId]
    refine (Channel.follows_adopt _).trans ?_
    split
    · exact Channel.follows_halt _
    · exact .refl _) h1
  have h3 := h.stopRun { t with chans := t.adoptConfigs.chans.mapId fun _ ch => if ch.used then ch.halt else ch }
    hte.2.1 hte.1 hte.2.2 h2
  have h4 := h.quiet _ { t with
    chans := t.adoptConfigs.chans.mapId fun _ ch => if ch.used then ch.halt else ch
    accs := t.adoptConfigs.accs
    tb := t.tb.stop
    ctl := { t.ctl with mode := .setup } } {} h3
  unfold State.endRun
  dsimp only
  rw [ht]
  exact h.settle _ (h.loadCompare _ _ (h.autoTest _ h4))

theorem writeConfig (h : UnitsKeep I) (c : ChanId) (g : ChanCfg) (s : State) (hg : g.ClampsOk) (hs : I s) :
    I (s.writeConfig c g) := by
  have hch := h.channels (s.chans.set c { s.chans.get c with cfg := g }) s (fun d => by
    rw [Bank.get_set]
    split
    · next hd => subst hd; exact Channel.follows_cfg _ hg
    · exact .refl _) hs
  exact h.settleOn _ _ (h.quiet _ _ {} hch)

theorem stageConfig (h : UnitsKeep I) (c : ChanId) (g : ChanCfg) (s : State) (hg : g.ClampsOk) (hs : I s) :
    I (s.stageConfig c g) :=
  h.channels _ s (fun d => by
    rw [Bank.get_set]
    split
    · next hd => subst hd; exact Channel.follows_pendCfg _ hg
    · exact .refl _) hs

theorem endStop (h : UnitsKeep I) (c : ChanId) (s : State) (hs : I s) : I (s.endStop c) := by
  unfold State.endStop
  split
  · refine h.settleOn _ _ (h.channels _ s (fun d => ?_) hs)
    rw [Bank.get_set]
    split
    · next hd => subst hd; exact Channel.follows_endStopped _
    · exact .refl _
  · exact hs

/-- A condition that the units' operations keep is kept by every request. -/
theorem requestsKeep (h : UnitsKeep I) : RequestsKeep I where
  link l s hl hs := h.quiet s _ { link := hl } hs
  senses x s hs := h.quiet s _ {} hs
  seq u s hu hs := h.quiet s _ { unit := hu } hs
  lock flags s hs := h.quiet s _ {} hs
  layOut := h.laidOut_keeps
  setTimebase := h.setTimebase
  stageTimebase := h.stageTimebase
  beginRun := h.beginRun
  endRun := h.endRun
  writeConfig := h.writeConfig
  stageConfig := h.stageConfig
  clearClamped c s hs := by
    refine h.quiet s _ { chans := fun d => ?_ } hs
    simp only [State.clearClamped, Bank.get_set]
    split
    · next hd => subst hd; rfl
    · rfl
  insert o p s hm := h.insert o p s (.inl hm)
  removeEntries := h.removeEntries
  runBoundary := h.runBoundary
  clearAccums mask s hs := h.quiet s _ {} hs
  clearTrips mask s hs := h.settleOn _ _ (h.clearLatches _ s (fun c hc => by
    simp only [State.clears, Bool.and_eq_true] at hc; exact hc.2) hs)
  arm := h.arm
  disarm s _ hs := h.settleOn _ _ (h.unit _ s (.inr rfl) hs)
  enterOutside l cause s hm := h.enterOutside l cause s (.inl hm)
  beginCheck q s hm hs := by
    refine h.settle _ (h.nextVisit q _ _ rfl ?_)
    exact h.quiet _ _ {} (h.goCheck s hm hs)
  abortCheck r s hm := h.leaveCheck _ r s hm

theorem takeEdge (h : UnitsKeep I) (c : ChanId) (l : Level) (s : State) (hs : I s) : I (s.takeEdge c l) := by
  have hmove : I (s.moveSense c l) := h.quiet s _ {} hs
  have hcap : ∀ (d : EdgeDir) (t : State), t.ctl.mode = .run → I t → I (t.capture c d) := by
    intro d t hm ht
    refine h.offer _ _ (by simp [Occurrence.kind]) (.inl (by simp [hm])) (h.quiet t _ { unit := ?_ } ht)
    unfold SeqUnit.senseEdge
    split <;> rfl
  unfold State.takeEdge
  dsimp only
  split
  · next hm =>
    unfold State.edgeInRun
    dsimp only
    split
    · split
      · exact hmove
      · exact hcap _ _ hm hmove
      · exact h.endStop _ _ (hcap _ _ hm hmove)
    · exact hmove
  · split
    · exact h.quiet _ _ {} hmove
    · exact hmove
  · exact hmove
  · exact hmove

theorem takeIl (h : UnitsKeep I) (i : IlId) (l : Level) (s : State) (hs : I s) : I (s.takeIl i l) := by
  unfold State.takeIl
  dsimp only
  cases hact : ((s.moveIl i l).ils.get i).active with
  | false =>
    have hmove := h.moveIl i l s (.inr hact) hs
    simp only [Bool.false_eq_true, if_false]
    unfold State.ilRelease
    split
    · exact h.rearm _ hmove
    · exact hmove
  | true =>
    simp only [if_true]
    unfold State.activate
    split
    · next hm => exact h.moveIl i l s (.inl hm) hs
    · next hm => exact h.leaveCheck _ _ _ (by simpa using hm) (h.trip i l s (fun e => by simp [e] at hm) hs)
    · next hm => exact h.settleOn _ _ (h.trip i l s (fun e => by simp [e] at hm) hs)
    · next hm => exact h.settleOn _ _ (h.trip i l s (fun e => by simp [e] at hm) hs)

theorem takeHome (h : UnitsKeep I) (l : Level) (s : State) (hs : I s) : I (s.takeHome l) := by
  have hmove : I { s with home := { s.home with filtered := l, run := 0 } } := h.quiet s _ {} hs
  cases l with
  | low => exact h.homeLow _ hmove
  | high => exact h.homeHigh _ hmove

theorem takeFrameEnd (h : UnitsKeep I) (s : State) (hs : I s) : I s.takeFrameEnd := by
  have hdue := h.frameEndDue false s hs
  unfold State.takeFrameEnd
  dsimp only
  split
  · next hm => exact h.runBoundary _ _ _ hm hdue
  · next hm => exact h.checkFrame _ hm hdue
  · exact hdue

theorem readSample (h : UnitsKeep I) (v : Levels) (s : State) (hs : I s) : I (s.readSample v) := by
  refine h.quiet s _ { mode := ?_, ils := fun i => ?_ } hs
  · simp only [State.readSample]; split <;> rfl
  · simp only [State.readSample, Bank.get_mapId]; split <;> rfl

theorem takePin (h : UnitsKeep I) (e : PinEvent) (s : State) (hs : I s) : I (s.takePin e) := by
  cases e with
  | edge c l => exact h.takeEdge c l s hs
  | interlock i l => exact h.takeIl i l s hs
  | home l => exact h.takeHome l s hs

/-- A condition that the units' operations keep is kept by every event, where it is kept over resets and does not read
what waits at the link. -/
theorem eventsKeep (h : UnitsKeep I) (hreset : ∀ (cause : ResetCause) (s : State), I s → I (s.takeReset cause))
    (hlink : ∀ (l : Link) (s : State), l.notices.Sublist s.link.notices → I s → I { s with link := l }) :
    EventsKeep I where
  link := hlink
  free n s hs := h.quiet s _ {} hs
  pins p s hs := h.quiet s _ {} hs
  sampler x s hs := h.quiet s _ {} hs
  reset := hreset
  endStarting r1 r0 s hm hs := by
    have hup := h.startUp s.ctl.cause (rateCode r1 r0) s hm hs
    refine h.quiet _ _ {} (hlink (s.endStarting r1 r0).link _ ?_ hup)
    simp [State.endStarting, State.offer, Link.offer, Occurrence.kind]
  readSample := h.readSample
  takePin := h.takePin
  takeFrameEnd := h.takeFrameEnd
  settleOn := h.settleOn
  riseOne c x s hs := h.quiet s _ {} hs
  driveClock s hs := h.quiet _ _ {} (h.clockTimebase s hs)
  judge := h.requestsKeep.judge

/-- A condition that the units' operations keep is kept by every step, where it is kept over resets and does not read
what waits at the link. -/
theorem step (h : UnitsKeep I) (hreset : ∀ (cause : ResetCause) (s : State), I s → I (s.takeReset cause))
    (hlink : ∀ (l : Link) (s : State), l.notices.Sublist s.link.notices → I s → I { s with link := l })
    (s t : State) (hs : I s) (he : Machine.step s = .next t) : I t :=
  (h.eventsKeep hreset hlink).step (fun _ s hs => h.quiet s _ {} hs) s t hs he

end UnitsKeep
end Sys2Proof.Machine
end

section
/-! SUPPORT. The agreement of run state, mode and Sequence Unit, the Posting Queue's form, and its agreement with
trips, as conditions that the units' operations keep. -/

namespace Sys2Proof.Machine

/-! ### What a quiet change leaves -/

theorem Quiet.chan_mode {s t : State} (q : Quiet s t) (c : ChanId) : (t.chans.get c).mode = (s.chans.get c).mode := by
  rw [q.chans c]

theorem Quiet.chan_member {s t : State} (q : Quiet s t) (c : ChanId) :
    (t.chans.get c).member = (s.chans.get c).member := by
  rw [q.chans c]

theorem State.used_congr {s t : State} {c : ChanId} (h : (t.chans.get c).mode = (s.chans.get c).mode) :
    t.used c = s.used c := by
  simp [State.used, Channel.used, h]

theorem Quiet.used {s t : State} (q : Quiet s t) (c : ChanId) : t.used c = s.used c := State.used_congr (q.chan_mode c)

theorem Quiet.latched {s t : State} (q : Quiet s t) (c : ChanId) : t.latched c = s.latched c := by
  rw [State.latched, State.latched, q.trips]

theorem State.guarded_congr {s t : State} {c : ChanId} (hm : (t.chans.get c).member = (s.chans.get c).member)
    (hi : ∀ i, (t.ils.get i).active = (s.ils.get i).active) : t.guarded c = s.guarded c := by
  simp only [State.guarded, hm, hi]

theorem Quiet.guarded {s t : State} (q : Quiet s t) (c : ChanId) : t.guarded c = s.guarded c :=
  State.guarded_congr (q.chan_member c) q.ils

/-! ### Trips -/

/-- What a trip by interlock `i` does where it has used members (R38, R107, R109). -/
theorem State.tripMembers_of_members {i : IlId} {s : State} (h : s.memberMask i ≠ 0) :
    s.tripMembers i = State.offer (.trip i (s.memberMask i) (s.countEntries fun e => s.member i e.channel))
      ((s.setLatches i).removeEntries fun e => s.member i e.channel) := if_neg h

theorem State.tripMembers_of_none {i : IlId} {s : State} (h : s.memberMask i = 0) : s.tripMembers i = s := if_pos h

theorem State.memberMask_eq_zero (s : State) (i : IlId) : s.memberMask i = 0 ↔ ∀ c, s.member i c = false :=
  chanMask_eq_zero _

/-- The latches and cause sets after a trip, whether or not there are members (R107, R109). -/
theorem State.tripMembers_trips (i : IlId) (s : State) (c : ChanId) :
    (s.tripMembers i).trips.get c = if s.member i c then (s.trips.get c).add i else s.trips.get c := by
  by_cases h : s.memberMask i = 0
  · rw [State.tripMembers_of_none h, (State.memberMask_eq_zero s i).1 h c]
    rfl
  · rw [State.tripMembers_of_members h, State.offer_trips, State.removeEntries_trips]
    simp [State.setLatches]

/-- The entries after a trip: those of the members have left (R38). -/
theorem State.tripMembers_entries (i : IlId) (s : State) :
    (s.tripMembers i).queue.entries = s.queue.entries.filter fun e => !s.member i e.channel := by
  by_cases h : s.memberMask i = 0
  · rw [State.tripMembers_of_none h]
    simp [(State.memberMask_eq_zero s i).1 h]
  · rw [State.tripMembers_of_members h, State.offer_queue, State.removeEntries_eq]
    rfl

/-- What holds of a state and is kept by every trip holds after the trips of all ACTIVE interlocks. -/
theorem State.tripActive_induction {P : State → Prop} (s : State) (hs : P s)
    (htrip : ∀ i t, P t → P (t.tripMembers i)) : P s.tripActive := by
  unfold State.tripActive
  induction allIls generalizing s with
  | nil => exact hs
  | cons i l ih =>
    rw [List.foldl_cons]
    refine ih _ ?_
    split
    · exact htrip i s hs
    · exact hs

@[simp] theorem State.tripActive_tb (s : State) : s.tripActive.tb = s.tb :=
  s.tripActive_induction (P := fun t => t.tb = s.tb) rfl fun i t h => by simpa using h

@[simp] theorem State.tripActive_ctl (s : State) : s.tripActive.ctl = s.ctl :=
  s.tripActive_induction (P := fun t => t.ctl = s.ctl) rfl fun i t h => by simpa using h

@[simp] theorem State.tripActive_seq (s : State) : s.tripActive.seq = s.seq :=
  s.tripActive_induction (P := fun t => t.seq = s.seq) rfl fun i t h => by simpa using h

@[simp] theorem State.tripActive_chans (s : State) : s.tripActive.chans = s.chans :=
  s.tripActive_induction (P := fun t => t.chans = s.chans) rfl fun i t h => by simpa using h

@[simp] theorem State.tripActive_ils (s : State) : s.tripActive.ils = s.ils :=
  s.tripActive_induction (P := fun t => t.ils = s.ils) rfl fun i t h => by simpa using h

/-! ### Released entries -/

theorem Channel.foldl_release_layout (es : List Entry) (ch : Channel) :
    (es.foldl Channel.release ch).mode = ch.mode ∧ (es.foldl Channel.release ch).member = ch.member := by
  induction es generalizing ch with
  | nil => exact ⟨rfl, rfl⟩
  | cons e es ih => exact ih (ch.release e)

/-- Released entries leave every channel's layout. -/
theorem State.applyReleased_layout (es : List Entry) (s : State) (c : ChanId) :
    ((s.applyReleased es).chans.get c).mode = (s.chans.get c).mode
      ∧ ((s.applyReleased es).chans.get c).member = (s.chans.get c).member := by
  simp only [State.applyReleased, Bank.get_mapId]
  exact Channel.foldl_release_layout _ _

/-! ### Run state, mode and Sequence Unit -/

theorem ModesAgree.of_eq {s t : State} (h : ModesAgree s) (htb : t.tb.run = s.tb.run) (hctl : t.ctl.mode = s.ctl.mode)
    (hseq : t.seq.unit = s.seq.unit) : ModesAgree t := by
  unfold ModesAgree; rw [htb, hctl, hseq]; exact h

theorem ModesAgree.running {s : State} (h : ModesAgree s) (hm : s.ctl.mode = .run ∨ s.ctl.mode = .check) :
    s.tb.run = .running := h.1.2 hm

theorem ModesAgree.stopped {s : State} (h : ModesAgree s) (hr : s.ctl.mode ≠ .run) (hc : s.ctl.mode ≠ .check) :
    s.tb.run = .stopped := by
  cases hrun : s.tb.run with
  | stopped => rfl
  | running => exact absurd (h.1.1 hrun) (by simp [hr, hc])

theorem ModesAgree.disabled {s : State} (h : ModesAgree s) (hm : s.ctl.mode ≠ .run) : s.seq.unit = .disabled := by
  by_contra hu; exact hm (h.2 hu)

theorem ModesAgree.inRun {s : State} (h : ModesAgree s) (hr : s.InRun) : s.ctl.mode = .run := hr.elim id h.2

theorem ModesAgree.live {s : State} (h : ModesAgree s) (hl : s.Live) : s.ctl.mode ≠ .starting :=
  hl.elim id fun hu => by simp [h.2 hu]

theorem Timebase.tick_run (t : Timebase) : t.tick.run = t.run := by
  unfold Timebase.tick; repeat' split
  all_goals rfl

theorem Timebase.clock_run (t : Timebase) : t.clock.run = t.run := by
  unfold Timebase.clock
  split
  · rfl
  · split
    · rfl
    · rw [Timebase.tick_run]

theorem Timebase.boundary_run (t : Timebase) (forced : Bool) : (t.boundary forced).run = t.run := by
  unfold Timebase.boundary; split <;> rfl

theorem ModesAgree.takeReset (cause : ResetCause) (s : State) : ModesAgree (s.takeReset cause) := by
  simp [ModesAgree, State.takeReset, State.reset, Timebase.reset, ModeCtl.afterReset, SeqUnit.reset]

theorem unitsKeep_modes : UnitsKeep ModesAgree where
  quiet s t q h := h.of_eq (by rw [q.tb]) q.mode q.unit
  startUp cause rate s hm h :=
    ⟨by simp [h.stopped (by simp [hm]) (by simp [hm])], fun hu => absurd (h.disabled (by simp [hm])) hu⟩
  offer o s _ _ h := h
  reorder l s _ h := h
  unit u s hu h := ⟨h.1, fun hne => h.inRun (hu.resolve_right hne)⟩
  insert o p s _ _ _ h := h.of_eq (by simp) (by simp) (by simp)
  removeEntries sel s hm h := h.of_eq (by simp) (by simp) (by simp)
  countdown s _ h := h.of_eq (by simp) (by simp) (by simp)
  channels b s _ h := h
  release b s _ _ h := h
  clearLatches sel s _ h := h
  trip i l s _ h := h.of_eq (by simp) (by simp) (by simp)
  moveIl i l s _ h := h
  layOut body s _ h := by
    refine h.of_eq ?_ ?_ ?_ <;>
      simp [State.laidOut, State.layChannels, State.layInterlocks, State.clearCaptures, State.dropUnusedTrips]
  frameEndDue b s h := h
  clockTimebase s h := h.of_eq (Timebase.clock_run _) rfl rfl
  boundary forced s _ h := h.of_eq (Timebase.boundary_run _ _) rfl rfl
  restart s _ h := h
  setTimebase g s _ _ h := h
  stageTimebase g s _ _ _ h := h
  goRun a b s hm _ h := ⟨by simp [Timebase.started, Timebase.go], fun _ => rfl⟩
  stopRun s hm _ hu h := ⟨by simp [Timebase.stop, Timebase.halt], fun hne => absurd hu hne⟩
  goCheck s hm h := ⟨by simp [Timebase.go], fun hne => absurd (h.disabled (by simp [hm])) hne⟩
  stopCheck s hm h := ⟨by simp [Timebase.halt], fun hne => absurd (h.disabled (by simp [hm])) hne⟩

/-! ### The Posting Queue's form (R18–R20, R30, R31) -/

theorem QueueWf.of_queue {s t : State} (h : QueueWf s) (ht : t.queue = s.queue) : QueueWf t := by
  unfold QueueWf; rw [ht]; exact h

/-- What is left of a well-formed queue after a removal with its HOLD test is well formed (R19, R31). -/
theorem QueueWf.afterRemoval {s t : State} {es : List Entry} (h : QueueWf s) (ht : t.queue = afterRemoval s.queue es)
    (hlen : es.length ≤ s.queue.entries.length) (hkeys : (es.map Entry.key).Nodup)
    (hrem : ∀ e ∈ es, e.remaining ≤ 4095) : QueueWf t := by
  obtain ⟨hcap, -, -, hthr, hset, -⟩ := h
  unfold QueueWf
  rw [ht]
  refine ⟨hlen.trans hcap, hkeys, hrem, hthr, fun hfull => ?_, fun hhold => ?_⟩
  · simp only [Machine.afterRemoval] at hfull ⊢
    have := hset (hfull.trans hlen)
    simp [this]
    omega
  · simp only [Machine.afterRemoval, Bool.and_eq_true, decide_eq_true_eq] at hhold ⊢
    exact hhold.2

theorem QueueWf.removeEntries {s : State} (h : QueueWf s) (sel : Entry → Bool) : QueueWf (s.removeEntries sel) := by
  obtain ⟨-, hkeys, hrem, -⟩ := id h
  refine h.afterRemoval (by rw [State.removeEntries_eq]) (List.length_filter_le ..) ?_ fun e he =>
    hrem e (List.mem_of_mem_filter he)
  exact hkeys.sublist (List.filter_sublist.map _)

theorem QueueWf.countdown {s : State} (h : QueueWf s) : QueueWf s.countdown := by
  obtain ⟨-, hkeys, hrem, -⟩ := id h
  refine h.afterRemoval (by rw [State.countdown_eq]) ?_ ?_ ?_
  · rw [List.length_map]; exact List.length_filter_le ..
  · rw [List.map_map]
    have hsub := hkeys.sublist ((List.filter_sublist (p := fun e : Entry => decide (e.remaining ≠ 0))
      (l := s.queue.entries)).map Entry.key)
    refine (List.Nodup.of_map _ hsub).map_on fun a ha b hb heq => ?_
    have ha0 : a.remaining ≠ 0 := by simpa using (List.mem_filter.1 ha).2
    have hb0 : b.remaining ≠ 0 := by simpa using (List.mem_filter.1 hb).2
    refine List.inj_on_of_nodup_map hsub ha hb ?_
    simp only [Function.comp, Entry.key, Prod.mk.injEq] at heq ⊢
    exact ⟨heq.1, heq.2.1, by omega⟩
  · intro e he
    obtain ⟨e', he', rfl⟩ := List.mem_map.1 he
    have := hrem e' (List.mem_of_mem_filter he')
    dsimp only
    omega

theorem QueueWf.insert {s : State} (h : QueueWf s) (o : Origin) (p : Posting) (hp : p.delay ≤ 4095)
    (hroom : s.HasRoom p) : QueueWf (s.insert o p) := by
  obtain ⟨hcap, hkeys, hrem, hthr, hset, hclear⟩ := h
  cases hk : s.queue.holdsKey p with
  | true =>
    rw [State.insert_entries_of_held hk]
    refine ⟨?_, ?_, ?_, hthr, ?_, ?_⟩
    · simpa using hcap
    · have : (s.queue.entries.map (Entry.coalesce p o)).map Entry.key = s.queue.entries.map Entry.key := by
        rw [List.map_map]; exact List.map_congr_left fun e _ => Entry.coalesce_key p o e
      simpa [this] using hkeys
    · intro e he
      obtain ⟨e', he', rfl⟩ := List.mem_map.1 he
      unfold Entry.coalesce
      split <;> exact hrem e' he'
    · simpa using hset
    · simpa using hclear
  | false =>
    have hlt : s.queue.entries.length < 32 := by
      rcases hroom with hr | hr
      · rw [hk] at hr; cases hr
      · exact hr
    have hent : ∀ e ∈ s.queue.entries ++ [p.entry o], e.remaining ≤ 4095 := by
      intro e he
      rcases List.mem_append.1 he with he | he
      · exact hrem e he
      · rw [List.mem_singleton] at he; subst he; exact hp
    have hnodup : ((s.queue.entries ++ [p.entry o]).map Entry.key).Nodup := by
      have := (s.keys_contains p).trans hk
      rw [List.map_append, List.nodup_append]
      refine ⟨hkeys, by simp, ?_⟩
      intro a ha b hb hab
      simp only [List.map_cons, List.map_nil, List.mem_singleton, Posting.entry_key] at hb
      have hin : p.key ∈ s.queue.entries.map Entry.key := hb ▸ hab ▸ ha
      rw [← PostingQueue.holdsKey_iff, hk] at hin
      cases hin
    rw [State.insert_of_not_held hk]
    unfold State.holdAfterAppend
    dsimp only
    split
    · next hhold =>
      refine ⟨?_, hnodup, hent, hthr, fun _ => rfl, fun _ => ?_⟩
      · simp only [State.changeHold, State.offer_queue, List.length_append, List.length_singleton]; omega
      · have hfull := hhold.2
        simp only [State.changeHold, State.offer_queue]
        omega
    · next hhold =>
      refine ⟨?_, hnodup, hent, hthr, fun hfull => ?_, fun hh => ?_⟩
      · simp only [List.length_append, List.length_singleton]; omega
      · by_contra hne
        exact hhold ⟨by simpa using hne, hfull⟩
      · have := hclear hh
        simp only [List.length_append, List.length_singleton]
        omega

theorem QueueWf.tripMembers {s : State} (h : QueueWf s) (i : IlId) : QueueWf (s.tripMembers i) := by
  by_cases hm : s.memberMask i = 0
  · rw [State.tripMembers_of_none hm]; exact h
  · rw [State.tripMembers_of_members hm]
    exact (QueueWf.removeEntries (s := s.setLatches i) (h.of_queue rfl) _).of_queue rfl

theorem QueueWf.takeReset (cause : ResetCause) (s : State) : QueueWf (s.takeReset cause) := by
  simp [QueueWf, PostingQueue.reset]

theorem unitsKeep_queueWf : UnitsKeep QueueWf where
  quiet s t q h := h.of_queue q.queue
  startUp cause rate s _ h := h
  offer o s _ _ h := h
  reorder l s _ h := h
  unit u s _ h := h
  insert o p s _ hp hroom h := h.insert o p hp.delay hroom
  removeEntries sel s hm h := h.removeEntries sel
  countdown s _ h := h.countdown
  channels b s _ h := h
  release b s _ _ h := h
  clearLatches sel s _ h := h
  trip i l s _ h := QueueWf.tripMembers (s := s.moveIl i l) h i
  moveIl i l s _ h := h
  layOut body s _ h := State.tripActive_induction _ h fun i t ht => ht.tripMembers i
  frameEndDue b s h := h
  clockTimebase s h := h
  boundary forced s _ h := h
  restart s _ h := h
  setTimebase g s _ _ h := h
  stageTimebase g s _ _ _ h := h
  goRun a b s _ ht h := by
    simp only [thresholdsOk, Bool.and_eq_true, decide_eq_true_eq] at ht
    refine ⟨by simp [PostingQueue.started], by simp [PostingQueue.started], by simp [PostingQueue.started],
      ⟨ht.1.1, ht.1.2, ht.2⟩, fun hfull => ?_, nofun⟩
    simp only [PostingQueue.started, List.length_nil] at hfull
    omega
  stopRun s _ _ _ h := h
  goCheck s _ h := h
  stopCheck s _ h := h

/-- Settles O54: every operation on the queue is an insertion with room or a removal with its HOLD test. -/
theorem queueStaysWellFormed : Obligations.QueueStaysWellFormed :=
  unitsKeep_queueWf.step (fun cause s _ => QueueWf.takeReset cause s) fun _ _ _ h => h

/-! ### The queue against modes and trips (R41) -/

/-- The entries against the rest of the part: none outside RUN, none for a channel that is UNUSED or tripped. -/
structure EntriesClear (s : State) : Prop where
  modes : ModesAgree s
  empty : s.ctl.mode ≠ .run → s.queue.entries = []
  clear : ∀ e ∈ s.queue.entries, s.used e.channel = true ∧ s.latched e.channel = false

theorem queueAgrees_iff (s : State) : QueueAgrees s ↔ EntriesClear s :=
  ⟨fun ⟨a, b, c⟩ => ⟨a, b, c⟩, fun ⟨a, b, c⟩ => ⟨a, b, c⟩⟩

/-- The entries stay clear where only some of them are left, whose channels are used and not tripped. -/
theorem EntriesClear.of_subset {s t : State} (h : EntriesClear s) (hmodes : ModesAgree t)
    (hmode : t.ctl.mode = s.ctl.mode) (hsub : t.queue.entries ⊆ s.queue.entries)
    (hclear : ∀ e ∈ t.queue.entries, s.used e.channel = true → s.latched e.channel = false →
      t.used e.channel = true ∧ t.latched e.channel = false) : EntriesClear t where
  modes := hmodes
  empty hm := by
    have := h.empty (hmode ▸ hm)
    exact List.subset_nil.1 (this ▸ hsub)
  clear e he := hclear e he (h.clear e (hsub he)).1 (h.clear e (hsub he)).2

/-- A queue without entries is clear. -/
theorem EntriesClear.of_empty {t : State} (hmodes : ModesAgree t) (he : t.queue.entries = []) : EntriesClear t :=
  ⟨hmodes, fun _ => he, fun e h => by rw [he] at h; cases h⟩

theorem State.insert_mem {o : Origin} {p : Posting} {s : State} {e : Entry} (h : e ∈ (s.insert o p).queue.entries) :
    (∃ e' ∈ s.queue.entries, e'.channel = e.channel) ∨ e.channel = p.channel := by
  cases hk : s.queue.holdsKey p with
  | true =>
    rw [State.insert_entries_of_held hk] at h
    obtain ⟨e', he', rfl⟩ := List.mem_map.1 h
    refine .inl ⟨e', he', ?_⟩
    unfold Entry.coalesce
    split <;> rfl
  | false =>
    rw [State.insert_of_not_held hk, State.holdAfterAppend_entries] at h
    rcases List.mem_append.1 h with h | h
    · exact .inl ⟨e, h, rfl⟩
    · rw [List.mem_singleton] at h; subst h; exact .inr rfl

theorem State.removeEntries_subset (sel : Entry → Bool) (s : State) :
    (s.removeEntries sel).queue.entries ⊆ s.queue.entries := by
  rw [State.removeEntries_eq]; exact fun _ => List.mem_of_mem_filter

theorem EntriesClear.tripMembers {s : State} (h : EntriesClear s) (i : IlId) : EntriesClear (s.tripMembers i) := by
  refine h.of_subset (h.modes.of_eq (by simp) (by simp) (by simp)) (by simp) ?_ fun e he hu hl => ?_
  · rw [State.tripMembers_entries]; exact fun _ => List.mem_of_mem_filter
  · rw [State.tripMembers_entries] at he
    have hnot : s.member i e.channel = false := by simpa using (List.mem_filter.1 he).2
    refine ⟨by simpa [State.used] using hu, ?_⟩
    rw [State.latched, State.tripMembers_trips, hnot]
    exact hl

theorem State.clearLatches_latched (sel : ChanId → Bool) (s : State) (c : ChanId) :
    (s.clearLatches sel).latched c = (s.latched c && !sel c) := by
  simp only [State.latched, State.clearLatches, State.loadCompare, Bank.get_mapId]
  cases sel c <;> simp [Trip.reset]

theorem State.clearLatches_mode (sel : ChanId → Bool) (s : State) (c : ChanId) :
    ((s.clearLatches sel).chans.get c).mode = (s.chans.get c).mode
      ∧ ((s.clearLatches sel).chans.get c).member = (s.chans.get c).member := by
  simp only [State.clearLatches, State.loadCompare, Bank.get_mapId]
  split <;> exact ⟨rfl, rfl⟩

theorem unitsKeep_entriesClear : UnitsKeep EntriesClear where
  quiet s t q h := h.of_subset (unitsKeep_modes.quiet s t q h.modes) q.mode (by rw [q.queue]; exact fun _ => id)
    fun e _ hu hl => ⟨(q.used _).trans hu, (q.latched _).trans hl⟩
  startUp cause rate s hm h :=
    .of_empty (unitsKeep_modes.startUp cause rate s hm h.modes) (h.empty (by simp [hm]))
  offer o s _ _ h := ⟨h.modes, h.empty, h.clear⟩
  reorder l s _ h := ⟨h.modes, h.empty, h.clear⟩
  unit u s hu h := ⟨unitsKeep_modes.unit u s hu h.modes, h.empty, h.clear⟩
  insert o p s hrun hp hroom h := by
    refine ⟨unitsKeep_modes.insert o p s hrun hp hroom h.modes, fun hm => ?_, fun e he => ?_⟩
    · exact absurd (h.modes.inRun hrun) (by simpa using hm)
    · have hsame : (s.insert o p).used e.channel = s.used e.channel
          ∧ (s.insert o p).latched e.channel = s.latched e.channel := by simp [State.used, State.latched]
      rw [hsame.1, hsame.2]
      rcases State.insert_mem he with ⟨e', he', hc⟩ | hc
      · rw [← hc]; exact h.clear e' he'
      · rw [hc]; exact ⟨hp.used, hp.clear⟩
  removeEntries sel s hm h := h.of_subset (unitsKeep_modes.removeEntries sel s hm h.modes) (by simp)
    (State.removeEntries_subset sel s) fun e _ hu hl =>
      ⟨by simpa [State.used] using hu, by simpa [State.latched] using hl⟩
  countdown s hm h := by
    refine ⟨unitsKeep_modes.countdown s hm h.modes, fun hne => absurd hm (by simpa using hne), fun e he => ?_⟩
    rw [State.countdown_eq] at he
    obtain ⟨e', he', rfl⟩ := List.mem_map.1 he
    simpa [State.used, State.latched] using h.clear e' (List.mem_of_mem_filter he')
  channels b s hb h := ⟨h.modes, h.empty, fun e he =>
    ⟨(State.used_congr (hb e.channel).mode).trans (h.clear e he).1, (h.clear e he).2⟩⟩
  release b s hb _ h := ⟨h.modes, h.empty, fun e he => by
    refine ⟨(State.used_congr ?_).trans (h.clear e he).1, (h.clear e he).2⟩
    exact (State.applyReleased_layout _ s e.channel).1⟩
  clearLatches sel s hsel h := h.of_subset h.modes rfl (fun _ => id) fun e _ hu hl =>
    ⟨(State.used_congr (State.clearLatches_mode sel s _).1).trans hu, by
      rw [State.clearLatches_latched, hl]; rfl⟩
  trip i l s hm h := EntriesClear.tripMembers (s := s.moveIl i l) ⟨h.modes, h.empty, h.clear⟩ i
  moveIl i l s _ h := ⟨h.modes, h.empty, h.clear⟩
  layOut body s hm h := by
    have hnone : s.queue.entries = [] := h.empty (by simp [hm])
    have he : (s.laidOut body).queue.entries = [] :=
      State.tripActive_induction (P := fun t => t.queue.entries = []) _ hnone fun i t ht => by
        rw [State.tripMembers_entries, ht]; rfl
    exact .of_empty (unitsKeep_modes.layOut body s hm h.modes) he
  frameEndDue b s h := ⟨h.modes, h.empty, h.clear⟩
  clockTimebase s h := ⟨unitsKeep_modes.clockTimebase s h.modes, h.empty, h.clear⟩
  boundary forced s hm h := ⟨unitsKeep_modes.boundary forced s hm h.modes, h.empty, h.clear⟩
  restart s _ h := ⟨h.modes, h.empty, h.clear⟩
  setTimebase g s _ _ h := ⟨h.modes, h.empty, h.clear⟩
  stageTimebase g s _ _ _ h := ⟨h.modes, h.empty, h.clear⟩
  goRun a b s hm ht h := .of_empty (unitsKeep_modes.goRun a b s hm ht h.modes) rfl
  stopRun s hm he hu h := .of_empty (unitsKeep_modes.stopRun s hm he hu h.modes) he
  goCheck s hm h := .of_empty (unitsKeep_modes.goCheck s hm h.modes) (h.empty (by simp [hm]))
  stopCheck s hm h := .of_empty (unitsKeep_modes.stopCheck s hm h.modes) (h.empty (by simp [hm]))

/-- Settles O55: entries come in RUN for used channels that are not tripped, trips flush their channels' entries, and
the mode leaves RUN with an empty queue. -/
theorem queueStaysClearOfTrips : Obligations.QueueStaysClearOfTrips := fun s t h he =>
  (queueAgrees_iff t).2 (unitsKeep_entriesClear.step (fun cause s _ => .of_empty (ModesAgree.takeReset cause s) rfl)
    (fun _ _ _ h => ⟨h.modes, h.empty, h.clear⟩) s t ((queueAgrees_iff s).1 h) he)

end Sys2Proof.Machine
end

section
/-! SUPPORT. Trips, the Timebase's counters, the Notice Queue and the levels, as conditions that the units' operations
keep. -/

namespace Sys2Proof.Machine

/-! ### Trips are safe (R108) -/

/-- Trips stay safe where used channels, latches and cause sets are the same and no channel is newly guarded. -/
theorem TripsWf.mono {s t : State} (h : TripsWf s) (hmode : t.ctl.mode = .starting → s.ctl.mode = .starting)
    (hused : ∀ c, t.used c = s.used c) (htrips : t.trips = s.trips)
    (hguard : ∀ c, s.used c = true → t.guarded c = true → s.guarded c = true) : TripsWf t := by
  obtain ⟨hstart, hcause, hunused, hsafe⟩ := h
  have hl : ∀ c, t.latched c = s.latched c := fun c => by rw [State.latched, State.latched, htrips]
  refine ⟨fun hm c => (hused c).trans (hstart (hmode hm) c), fun c hc => ?_, fun c hc => ?_, fun c hu hg => ?_⟩
  · rw [htrips]; exact hcause c ((hl c).symm.trans hc)
  · exact (hl c).trans (hunused c ((hused c).symm.trans hc))
  · have hu' := (hused c).symm.trans hu
    exact (hl c).trans (hsafe c hu' (hguard c hu' hg))

theorem TripsWf.of_eq {s t : State} (h : TripsWf s) (hctl : t.ctl.mode = s.ctl.mode) (hchans : t.chans = s.chans)
    (htrips : t.trips = s.trips) (hils : t.ils = s.ils) : TripsWf t :=
  h.mono (fun hm => hctl ▸ hm) (fun c => State.used_congr (by rw [hchans])) htrips fun c _ hg => by
    rwa [State.guarded_congr (s := s) (by rw [hchans]) fun i => by rw [hils]] at hg

theorem State.tripMembers_latched (i : IlId) (s : State) (c : ChanId) :
    (s.tripMembers i).latched c = (s.latched c || s.member i c) := by
  rw [State.latched, State.tripMembers_trips, State.latched]
  cases s.member i c <;> simp [Trip.add]

theorem State.tripMembers_member (i j : IlId) (s : State) (c : ChanId) :
    (s.tripMembers i).member j c = s.member j c := by
  simp [State.member, State.used]

/-- The channels tripped once every ACTIVE interlock has tripped its members (R116). -/
theorem State.tripActive_latched (s : State) (c : ChanId) :
    s.tripActive.latched c = true ↔
      s.latched c = true ∨ ∃ i, (s.ils.get i).active = true ∧ s.member i c = true := by
  have hfold : ∀ (l : List IlId) (u : State),
      (l.foldl (fun s i => if (s.ils.get i).active then s.tripMembers i else s) u).latched c = true ↔
        u.latched c = true ∨ ∃ i ∈ l, (u.ils.get i).active = true ∧ u.member i c = true := by
    intro l
    induction l with
    | nil => simp
    | cons i l ih =>
      intro u
      rw [List.foldl_cons, ih]
      by_cases ha : (u.ils.get i).active = true
      · simp [ha, State.tripMembers_latched, State.tripMembers_member, or_assoc]
      · simp [ha]
  exact (hfold allIls s).trans (by simp [mem_allIls])

/-- The cause sets and latches agree: no causes without a latch, no latch on an UNUSED channel (R108). -/
def TripsAgree (s : State) : Prop :=
  (∀ c, s.latched c = false → (s.trips.get c).cause = 0) ∧ ∀ c, s.used c = false → s.latched c = false

theorem State.not_member_of_unused {s : State} {i : IlId} {c : ChanId} (h : s.used c = false) :
    s.member i c = false := by
  simp [State.member, h]

theorem TripsAgree.tripMembers {s : State} (h : TripsAgree s) (i : IlId) : TripsAgree (s.tripMembers i) := by
  refine ⟨fun c hc => ?_, fun c hc => ?_⟩
  · rw [State.tripMembers_latched, Bool.or_eq_false_iff] at hc
    rw [State.tripMembers_trips, hc.2]
    exact h.1 c hc.1
  · have hu : s.used c = false := by simpa [State.used] using hc
    rw [State.tripMembers_latched, h.2 c hu, State.not_member_of_unused hu]
    rfl

theorem State.guarded_of_active {s : State} {i : IlId} {c : ChanId}
    (hm : (s.chans.get c).member.getLsbD i.val = true) (ha : (s.ils.get i).active = true) : s.guarded c = true :=
  (State.guarded_iff s c).2 ⟨i, hm, (Interlock.active_iff _).1 ha⟩

theorem State.exists_active_of_guarded {s : State} {c : ChanId} (h : s.guarded c = true) :
    ∃ i : IlId, (s.chans.get c).member.getLsbD i.val = true ∧ (s.ils.get i).active = true := by
  obtain ⟨i, hm, ha⟩ := (State.guarded_iff s c).1 h
  exact ⟨i, hm, (Interlock.active_iff _).2 ha⟩

theorem State.moveIl_ils_of_ne {i j : IlId} (l : Level) (s : State) (h : j ≠ i) :
    (s.moveIl i l).ils.get j = s.ils.get j := by
  simp [State.moveIl, h]

theorem TripsWf.trip {s : State} (h : TripsWf s) (i : IlId) (l : Level) (hm : s.ctl.mode ≠ .starting) :
    TripsWf ((s.moveIl i l).tripMembers i) := by
  obtain ⟨-, hcause, hunused, hsafe⟩ := h
  have hagree : TripsAgree ((s.moveIl i l).tripMembers i) := TripsAgree.tripMembers (s := s.moveIl i l) ⟨hcause, hunused⟩ i
  refine ⟨fun hs => absurd hs (by simpa using hm), hagree.1, hagree.2, fun c hu hg => ?_⟩
  have hu' : s.used c = true := by simpa [State.used] using hu
  obtain ⟨j, hj, ha⟩ := State.exists_active_of_guarded hg
  simp only [State.tripMembers_chans, State.tripMembers_ils] at hj ha
  rw [State.tripMembers_latched, Bool.or_eq_true]
  by_cases hji : j = i
  · subst hji
    exact .inr (by simpa [State.member, State.used] using ⟨hu', hj⟩)
  · rw [State.moveIl_ils_of_ne l s hji] at ha
    exact .inl (hsafe c hu' (State.guarded_of_active hj ha))

theorem TripsWf.clearLatches {s : State} (h : TripsWf s) (sel : ChanId → Bool)
    (hsel : ∀ c, sel c = true → s.clearable c = true) : TripsWf (s.clearLatches sel) := by
  obtain ⟨hstart, hcause, hunused, hsafe⟩ := h
  have hused : ∀ c, (s.clearLatches sel).used c = s.used c := fun c =>
    State.used_congr (State.clearLatches_mode sel s c).1
  refine ⟨fun hm c => (hused c).trans (hstart hm c), fun c hc => ?_, fun c hc => ?_, fun c hu hg => ?_⟩
  · rw [State.clearLatches_latched] at hc
    simp only [State.clearLatches, State.loadCompare, Bank.get_mapId]
    cases hs : sel c with
    | true => rfl
    | false => exact hcause c (by simpa [hs] using hc)
  · rw [State.clearLatches_latched, hunused c ((hused c).symm.trans hc)]; rfl
  · have hg' : s.guarded c = true := by
      rwa [State.guarded_congr (State.clearLatches_mode sel s c).2 fun _ => rfl] at hg
    have hs : sel c = false := by
      by_contra hne
      have := hsel c (by simpa using hne)
      simp [State.clearable, hg'] at this
    rw [State.clearLatches_latched, hs, hsafe c ((hused c).symm.trans hu) hg']
    rfl

theorem TripsWf.laidOut {s : State} (h : TripsWf s) (body : List Byte) (hm : s.ctl.mode = .setup) :
    TripsWf (s.laidOut body) := by
  obtain ⟨-, hcause, -, -⟩ := h
  have hmode : (s.laidOut body).ctl.mode = .setup := by
    simpa [State.laidOut, State.layChannels, State.layInterlocks, State.clearCaptures, State.dropUnusedTrips] using hm
  unfold State.laidOut at hmode ⊢
  generalize hw : ((s.layChannels body).layInterlocks body).clearCaptures = w at hmode ⊢
  have hwt : w.trips = s.trips := by rw [← hw]; rfl
  have hdrop : TripsAgree w.dropUnusedTrips := by
    refine ⟨fun c hc => ?_, fun c hc => ?_⟩
    · simp only [State.latched, State.dropUnusedTrips, Bank.get_mapId] at hc ⊢
      split
      · next hu => rw [if_pos hu] at hc; rw [hwt] at hc ⊢; exact hcause c hc
      · rfl
    · have hu : w.used c = false := hc
      simp [State.latched, State.dropUnusedTrips, hu, Trip.reset]
  have hagree : TripsAgree w.dropUnusedTrips.tripActive :=
    State.tripActive_induction _ hdrop fun i t ht => ht.tripMembers i
  refine ⟨fun hs => absurd (hs.symm.trans hmode) nofun, hagree.1, hagree.2, fun c hu hg => ?_⟩
  obtain ⟨i, hi, ha⟩ := State.exists_active_of_guarded hg
  rw [State.tripActive_chans] at hi
  rw [State.tripActive_ils] at ha
  refine (State.tripActive_latched _ c).2 (.inr ⟨i, ha, ?_⟩)
  simpa [State.member, State.used] using ⟨by simpa [State.used] using hu, hi⟩

theorem TripsWf.takeReset (cause : ResetCause) (s : State) : TripsWf (s.takeReset cause) := by
  have hu : ∀ c, (s.takeReset cause).used c = false := fun c => by simp [State.used, Channel.used, Channel.reset]
  have ht : ∀ c, (s.takeReset cause).trips.get c = .reset := fun c => by simp [State.takeReset, State.reset]
  exact ⟨fun _ => hu, fun c _ => by rw [ht]; rfl, fun c _ => by rw [State.latched, ht]; rfl,
    fun c h _ => absurd h (by simp [hu c])⟩

theorem unitsKeep_tripsWf : UnitsKeep TripsWf where
  quiet s t q h := h.mono (fun hm => q.mode ▸ hm) q.used q.trips fun c _ hg => (q.guarded c) ▸ hg
  startUp cause rate s hm h := h.mono nofun (fun _ => rfl) rfl fun c hu _ => absurd hu (by simp [h.1 hm c])
  offer o s _ _ h := h
  reorder l s _ h := h
  unit u s _ h := h
  insert o p s _ _ _ h := h.of_eq (by simp) (by simp) (by simp) (by simp)
  removeEntries sel s hm h := h.of_eq (by simp) (by simp) (by simp) (by simp)
  countdown s _ h := h.of_eq (by simp) (by simp) (by simp) (by simp)
  channels b s hb h := h.mono id (fun c => State.used_congr (hb c).mode) rfl fun c _ hg =>
    (State.guarded_congr (t := { s with chans := b }) (hb c).member fun _ => rfl).symm.trans hg
  release b s _ _ h := h.mono id (fun c => State.used_congr (State.applyReleased_layout _ s c).1) rfl fun c _ hg => by
    exact (State.guarded_congr (State.applyReleased_layout _ s c).2 fun _ => rfl).symm.trans hg
  clearLatches sel s hsel h := h.clearLatches sel hsel
  trip i l s hm h := h.trip i l hm
  moveIl i l s hcase h := by
    refine h.mono id (fun _ => rfl) rfl fun c hu hg => ?_
    rcases hcase with hm | hoff
    · exact absurd hu (by simp [h.1 hm c])
    · obtain ⟨j, hj, ha⟩ := State.exists_active_of_guarded hg
      have hji : j ≠ i := by rintro rfl; simp [hoff] at ha
      rw [State.moveIl_ils_of_ne l s hji] at ha
      exact State.guarded_of_active hj ha
  layOut body s hm h := h.laidOut body hm
  frameEndDue b s h := h
  clockTimebase s h := h
  boundary forced s _ h := h
  restart s _ h := h
  setTimebase g s _ _ h := h
  stageTimebase g s _ _ _ h := h
  goRun a b s hm _ h := h.mono nofun (fun _ => rfl) rfl fun _ _ hg => hg
  stopRun s _ _ _ h := h.mono nofun (fun _ => rfl) rfl fun _ _ hg => hg
  goCheck s _ h := h.mono nofun (fun _ => rfl) rfl fun _ _ hg => hg
  stopCheck s _ h := h.mono nofun (fun _ => rfl) rfl fun _ _ hg => hg

/-- Settles O56: an activation trips the used members in that event, and latches clear on unguarded channels alone. -/
theorem tripsStaySafe : Obligations.TripsStaySafe :=
  unitsKeep_tripsWf.step (fun cause s _ => TripsWf.takeReset cause s) fun _ _ _ h => h

/-! ### The Timebase's counters (R1–R4, R8, R16) -/

/-- A Timebase within its settings. -/
structure Timebase.Sound (t : Timebase) : Prop where
  active : t.active.InRange
  staged : t.staged.InRange
  divider : t.divider ≤ t.active.prescale
  counter : t.counter ≤ t.active.period
  rep : t.rep ≤ t.active.rep
  up : t.dir = .up → t.counter < t.active.period
  edge : t.active.align = .edge → t.dir = .up
  align : t.staged.align = t.active.align
  stopped : t.run = .stopped → t.divider = 0 ∧ t.counter = 0 ∧ t.dir = .up

/-- The Timebase is sound and, outside RUN, its settings are not staged. -/
structure TimebaseSound (s : State) : Prop where
  modes : ModesAgree s
  sound : s.tb.Sound
  staged : s.ctl.mode ≠ .run → s.tb.staged = s.tb.active

theorem timebaseWf_iff (s : State) : TimebaseWf s ↔ TimebaseSound s := by
  constructor
  · rintro ⟨h0, h1, h2, h3, h4, h5, h6, h7, h8, h9, h10⟩
    exact ⟨h0, ⟨h1, h2, h3, h4, h5, h6, h7, h8, h9⟩, h10⟩
  · rintro ⟨h0, ⟨h1, h2, h3, h4, h5, h6, h7, h8, h9⟩, h10⟩
    exact ⟨h0, h1, h2, h3, h4, h5, h6, h7, h8, h9, h10⟩

theorem TimebaseSound.of_tb {s t : State} (h : TimebaseSound s) (hmodes : ModesAgree t) (htb : t.tb = s.tb)
    (hmode : t.ctl.mode = s.ctl.mode) : TimebaseSound t :=
  ⟨hmodes, htb ▸ h.sound, fun hm => by rw [htb]; exact h.staged (hmode ▸ hm)⟩

theorem TbSettings.InRange.period_pos {g : TbSettings} (h : g.InRange) : 0 < g.period := by
  obtain ⟨-, hp, -⟩ := h; omega

/-- Counters at the start of a frame, under settings in range, are sound. -/
theorem Timebase.Sound.of_restart {t : Timebase} (hactive : t.active.InRange) (hstaged : t.staged.InRange)
    (halign : t.staged.align = t.active.align) (hrep : t.rep ≤ t.active.rep) (hdiv : t.divider = 0)
    (hcount : t.counter = 0) (hdir : t.dir = .up) : t.Sound where
  active := hactive
  staged := hstaged
  divider := by omega
  counter := by omega
  rep := hrep
  up _ := by have := hactive.period_pos; omega
  edge _ := hdir
  align := halign
  stopped _ := ⟨hdiv, hcount, hdir⟩

theorem Timebase.Sound.tick {t : Timebase} (h : t.Sound) (hrun : t.run = .running) : t.tick.Sound := by
  have hpos := h.active.period_pos
  have hcount := h.counter
  obtain ⟨a, st, dv, n, dir, rep, b, run, due⟩ := t
  dsimp only at hrun hpos hcount
  subst hrun
  unfold Timebase.tick
  dsimp only
  split
  · next ha =>
    split
    · exact { h with counter := by dsimp only; omega, up := fun _ => by dsimp only; omega, stopped := nofun }
    · exact { h with counter := by simp, up := fun _ => hpos, edge := fun _ => rfl, stopped := nofun }
  · next ha =>
    split
    · exact { h with counter := by dsimp only; omega, up := fun _ => by dsimp only; omega, stopped := nofun }
    · exact { h with counter := by simp, up := nofun, edge := fun he => by simp [ha] at he, stopped := nofun }
  · next ha =>
    split
    · exact { h with
        counter := by dsimp only; omega
        up := nofun
        edge := fun he => by simp [ha] at he
        stopped := nofun }
    · exact { h with counter := by simp, up := fun _ => hpos, edge := fun _ => rfl, stopped := nofun }

theorem Timebase.Sound.clock {t : Timebase} (h : t.Sound) : t.clock.Sound := by
  unfold Timebase.clock
  split
  · exact h
  · next hrun =>
    split
    · next hlt => exact { h with divider := by dsimp only; omega, stopped := fun hs => by simp [hrun] at hs }
    · refine Timebase.Sound.tick ?_ hrun
      exact { h with divider := by simp, stopped := fun hs => by simp [hrun] at hs }

theorem Timebase.Sound.release {t : Timebase} (h : t.Sound) : t.release.Sound :=
  .of_restart h.staged h.staged rfl (Nat.le_refl _) rfl rfl rfl

theorem Timebase.Sound.boundary {t : Timebase} (h : t.Sound) (forced : Bool) : (t.boundary forced).Sound := by
  unfold Timebase.boundary
  split
  · exact h.release
  · exact .of_restart h.active h.staged h.align ((Nat.sub_le _ _).trans h.rep) rfl rfl rfl

/-- Starting, stopping and restarting keep the settings and put the counters at the start of a frame. -/
theorem Timebase.Sound.halt {t : Timebase} (h : t.Sound) : t.halt.Sound :=
  .of_restart h.active h.staged h.align h.rep rfl rfl rfl

theorem Timebase.Sound.go {t : Timebase} (h : t.Sound) : t.go.Sound :=
  .of_restart h.active h.staged h.align h.rep rfl rfl rfl

theorem TimebaseSound.takeReset (cause : ResetCause) (s : State) : TimebaseSound (s.takeReset cause) := by
  have hr : TbSettings.reset.InRange := by simp [TbSettings.InRange, TbSettings.reset]
  exact ⟨ModesAgree.takeReset cause s, .of_restart hr hr rfl (Nat.le_refl _) rfl rfl rfl, fun _ => rfl⟩

theorem unitsKeep_timebaseSound : UnitsKeep TimebaseSound where
  quiet s t q h := h.of_tb (unitsKeep_modes.quiet s t q h.modes) q.tb q.mode
  startUp cause rate s hm h :=
    ⟨unitsKeep_modes.startUp cause rate s hm h.modes, h.sound, fun _ => h.staged (by simp [hm])⟩
  offer o s _ _ h := ⟨h.modes, h.sound, h.staged⟩
  reorder l s _ h := ⟨h.modes, h.sound, h.staged⟩
  unit u s hu h := ⟨unitsKeep_modes.unit u s hu h.modes, h.sound, h.staged⟩
  insert o p s hr hp hroom h := h.of_tb (unitsKeep_modes.insert o p s hr hp hroom h.modes) (by simp) (by simp)
  removeEntries sel s hm h := h.of_tb (unitsKeep_modes.removeEntries sel s hm h.modes) (by simp) (by simp)
  countdown s hm h := h.of_tb (unitsKeep_modes.countdown s hm h.modes) (by simp) (by simp)
  channels b s _ h := ⟨h.modes, h.sound, h.staged⟩
  release b s _ _ h := ⟨h.modes, h.sound, h.staged⟩
  clearLatches sel s _ h := ⟨h.modes, h.sound, h.staged⟩
  trip i l s hm h := h.of_tb (unitsKeep_modes.trip i l s hm h.modes) (by simp) (by simp)
  moveIl i l s _ h := ⟨h.modes, h.sound, h.staged⟩
  layOut body s hm h := by
    refine h.of_tb (unitsKeep_modes.layOut body s hm h.modes) ?_ ?_ <;>
      simp [State.laidOut, State.layChannels, State.layInterlocks, State.clearCaptures, State.dropUnusedTrips]
  frameEndDue b s h := ⟨h.modes, { h.sound with }, h.staged⟩
  clockTimebase s h := by
    refine ⟨unitsKeep_modes.clockTimebase s h.modes, h.sound.clock, fun hm => ?_⟩
    have hset : s.tb.clock.staged = s.tb.staged ∧ s.tb.clock.active = s.tb.active := by
      unfold Timebase.clock Timebase.tick
      repeat' split
      all_goals exact ⟨rfl, rfl⟩
    exact hset.1.trans ((h.staged hm).trans hset.2.symm)
  boundary forced s hm h :=
    ⟨unitsKeep_modes.boundary forced s hm h.modes, h.sound.boundary forced, fun hne => absurd hm hne⟩
  restart s hm h := ⟨h.modes, .of_restart h.sound.active h.sound.staged h.sound.align h.sound.rep rfl rfl rfl, h.staged⟩
  setTimebase g s hm hg h := by
    have hsame : s.tb.run = (s.setTimebase g).tb.run := rfl
    exact ⟨h.modes, .of_restart hg hg rfl (Nat.le_refl _) rfl rfl rfl, fun _ => rfl⟩
  stageTimebase g s hm hg ha h :=
    ⟨h.modes, { h.sound with staged := hg, align := ha }, fun hne => absurd hm hne⟩
  goRun a b s hm ht h := by
    refine ⟨unitsKeep_modes.goRun a b s hm ht h.modes, ?_, fun hne => absurd rfl hne⟩
    exact .of_restart h.sound.active h.sound.staged h.sound.align (Nat.le_refl _) rfl rfl rfl
  stopRun s hm he hu h := by
    refine ⟨unitsKeep_modes.stopRun s hm he hu h.modes, ?_, fun _ => rfl⟩
    exact .of_restart h.sound.staged h.sound.staged rfl (Nat.le_refl _) rfl rfl rfl
  goCheck s hm h := ⟨unitsKeep_modes.goCheck s hm h.modes, h.sound.go, fun _ => h.staged (by simp [hm])⟩
  stopCheck s hm h := ⟨unitsKeep_modes.stopCheck s hm h.modes, h.sound.halt, fun _ => h.staged (by simp [hm])⟩

/-- Settles O57: ticks count within PERIOD, boundaries restart the counters, and staged settings come in RUN alone. -/
theorem timebaseStaysInRange : Obligations.TimebaseStaysInRange := fun s t h he =>
  (timebaseWf_iff t).2 (unitsKeep_timebaseSound.step (fun cause s _ => .takeReset cause s)
    (fun _ _ _ h => ⟨h.modes, h.sound, h.staged⟩) s t ((timebaseWf_iff s).1 h) he)

/-! ### Levels (R54) -/

/-- Every channel's levels and every pending CLAMP are in range. -/
structure LevelsSound (s : State) : Prop where
  modes : ModesAgree s
  empty : s.ctl.mode ≠ .run → s.queue.entries = []
  entries : ∀ e ∈ s.queue.entries, e.setpoint.ClampOk (s.chans.get e.channel).mode
  sound : ∀ c, (s.chans.get c).Sound

theorem levelsWf_iff (s : State) : LevelsWf s ↔ LevelsSound s := by
  constructor
  · rintro ⟨h1, h2, h3, h4⟩
    refine ⟨h1, h2, h3, fun c => ?_⟩
    obtain ⟨a, b, d, e⟩ := h4 c
    exact ⟨a, b, d, e⟩
  · rintro ⟨h1, h2, h3, h4⟩
    exact ⟨h1, h2, h3, fun c => ⟨(h4 c).act, (h4 c).lo, (h4 c).cfg, (h4 c).pend⟩⟩

theorem clampTo_between {lo hi : Int} (v : Int) (h : lo ≤ hi) : lo ≤ clampTo lo hi v ∧ clampTo lo hi v ≤ hi := by
  unfold clampTo; repeat' split
  all_goals omega

/-- A released entry keeps the active set within its clamps (R55, R58–R60). -/
theorem ActiveSet.Within.apply {a : ActiveSet} {m : ChanMode} {sp : Setpoint} (h : a.Within) (hsp : sp.ClampOk m) :
    (a.apply sp).Within := by
  obtain ⟨h1, h2, h3, h4, h5, h6, h7⟩ := h
  have hle : a.lo ≤ a.hi := by omega
  cases sp with
  | level v => exact ⟨h1, h2, h3, h4, (clampTo_between v hle).1, (clampTo_between v hle).2, nofun⟩
  | ramp t st =>
    refine ⟨h1, h2, h3, h4, h5, h6, fun r hr => ?_⟩
    cases hr
    exact clampTo_between t hle
  | drive d => exact ⟨h1, h2, h3, h4, h5, h6, h7⟩
  | clamp lo hi =>
    obtain ⟨c1, c2, c3, c4, -⟩ := hsp
    have hc : lo ≤ hi := by omega
    refine ⟨c1, c2, c3, c4, (clampTo_between _ hc).1, (clampTo_between _ hc).2, fun r hr => ?_⟩
    obtain ⟨r', -, rfl⟩ := Option.map_eq_some_iff.1 hr
    exact clampTo_between _ hc

theorem ActiveSet.apply_lo {a : ActiveSet} {m : ChanMode} {sp : Setpoint} (ha : a.lo = 0) (hsp : sp.ClampOk m)
    (hm : m ≠ .directional) : (a.apply sp).lo = 0 := by
  cases sp with
  | clamp lo hi => obtain ⟨-, -, -, -, hlo⟩ := hsp; exact hlo hm
  | level v | ramp t st | drive d => exact ha

theorem Channel.Sound.release {ch : Channel} {e : Entry} (h : ch.Sound) (he : e.setpoint.ClampOk ch.mode) :
    (ch.release e).Sound :=
  ⟨h.act.apply he, fun hm => ActiveSet.apply_lo (h.lo hm) he hm, h.cfg, h.pend⟩

theorem Channel.Sound.foldl_release {es : List Entry} {ch : Channel} (h : ch.Sound)
    (he : ∀ e ∈ es, e.setpoint.ClampOk ch.mode) : (es.foldl Channel.release ch).Sound := by
  induction es generalizing ch with
  | nil => exact h
  | cons e es ih =>
    exact ih (h.release (he e (List.mem_cons_self ..))) fun e' he' => he e' (List.mem_cons_of_mem _ he')

/-- The entries that a queue operation leaves or adds keep their clamps in range. -/
theorem LevelsSound.of_entries {s t : State} (h : LevelsSound s) (hmodes : ModesAgree t)
    (hctl : t.ctl.mode = s.ctl.mode) (hchans : t.chans = s.chans)
    (he : ∀ e ∈ t.queue.entries, e.setpoint.ClampOk (s.chans.get e.channel).mode)
    (hempty : s.queue.entries = [] → s.ctl.mode ≠ .run → t.queue.entries = []) : LevelsSound t where
  modes := hmodes
  empty hm := hempty (h.empty (hctl ▸ hm)) (hctl ▸ hm)
  entries e hmem := by rw [hchans]; exact he e hmem
  sound c := by rw [hchans]; exact h.sound c

theorem LevelsSound.of_subset {s t : State} (h : LevelsSound s) (hmodes : ModesAgree t)
    (hctl : t.ctl.mode = s.ctl.mode) (hchans : t.chans = s.chans) (hsub : t.queue.entries ⊆ s.queue.entries) :
    LevelsSound t :=
  h.of_entries hmodes hctl hchans (fun e he => h.entries e (hsub he)) fun hnil _ => List.subset_nil.1 (hnil ▸ hsub)

/-- Channels change while they follow. -/
theorem LevelsSound.of_chans {s t : State} (h : LevelsSound s) (hmodes : ModesAgree t)
    (hempty : t.ctl.mode ≠ .run → t.queue.entries = []) (hsub : t.queue.entries ⊆ s.queue.entries)
    (hmode : ∀ c, (t.chans.get c).mode = (s.chans.get c).mode) (hsound : ∀ c, (t.chans.get c).Sound) :
    LevelsSound t where
  modes := hmodes
  empty := hempty
  entries e he := by rw [hmode]; exact h.entries e (hsub he)
  sound := hsound

theorem Channel.Sound.reset : Channel.reset.Sound := by
  refine ⟨⟨?_, ?_, ?_, ?_, ?_, ?_, fun r hr => ?_⟩, fun _ => rfl, ⟨?_, ?_, ?_, ?_⟩, fun g hg => ?_⟩
  case refine_7 | refine_12 => simp [Channel.reset] at *
  all_goals decide

theorem State.insert_clamp {o : Origin} {p : Posting} {s : State} (hs : ∀ e ∈ s.queue.entries,
      e.setpoint.ClampOk (s.chans.get e.channel).mode) (hp : p.setpoint.ClampOk (s.chans.get p.channel).mode)
    {e : Entry} (h : e ∈ (s.insert o p).queue.entries) : e.setpoint.ClampOk (s.chans.get e.channel).mode := by
  cases hk : s.queue.holdsKey p with
  | true =>
    rw [State.insert_entries_of_held hk] at h
    obtain ⟨e', he', rfl⟩ := List.mem_map.1 h
    unfold Entry.coalesce
    split
    · next hkey =>
      have hc : e'.channel = p.channel := congrArg (·.1) hkey
      dsimp only
      rw [hc]
      exact hp
    · exact hs e' he'
  | false =>
    rw [State.insert_of_not_held hk, State.holdAfterAppend_entries] at h
    rcases List.mem_append.1 h with h | h
    · exact hs e h
    · rw [List.mem_singleton] at h; subst h; exact hp

/-- A channel that takes a layout restarts its active set, so it is sound under any mode. -/
theorem Channel.Sound.layOut {ch : Channel} (h : ch.Sound) (l : ChanLayout) : (ch.layOut l).Sound :=
  ⟨Channel.startSet_within (ch := { ch with mode := l.mode, deadTime := l.deadTime, member := l.member, role := l.role })
    h.cfg, fun hm => if_neg hm, h.cfg, h.pend⟩

theorem LevelsSound.takeReset (cause : ResetCause) (s : State) : LevelsSound (s.takeReset cause) :=
  ⟨ModesAgree.takeReset cause s, fun _ => rfl, fun e he => by simp [PostingQueue.reset] at he,
    fun c => by simpa using Channel.Sound.reset⟩

theorem unitsKeep_levelsSound : UnitsKeep LevelsSound where
  quiet s t q h := h.of_chans (unitsKeep_modes.quiet s t q h.modes) (fun hm => by
      rw [q.queue]; exact h.empty (q.mode ▸ hm)) (by rw [q.queue]; exact fun _ => id) q.chan_mode fun c => by
    rw [q.chans c]
    exact ⟨(h.sound c).act, (h.sound c).lo, (h.sound c).cfg, (h.sound c).pend⟩
  startUp cause rate s hm h :=
    ⟨unitsKeep_modes.startUp cause rate s hm h.modes, fun _ => h.empty (by simp [hm]), h.entries, h.sound⟩
  offer o s _ _ h := ⟨h.modes, h.empty, h.entries, h.sound⟩
  reorder l s _ h := ⟨h.modes, h.empty, h.entries, h.sound⟩
  unit u s hu h := ⟨unitsKeep_modes.unit u s hu h.modes, h.empty, h.entries, h.sound⟩
  insert o p s hr hp hroom h := h.of_entries (unitsKeep_modes.insert o p s hr hp hroom h.modes) (by simp) (by simp)
    (fun _ => State.insert_clamp h.entries hp.clamp) fun _ hm => absurd (h.modes.inRun hr) hm
  removeEntries sel s hm h := h.of_subset (unitsKeep_modes.removeEntries sel s hm h.modes) (by simp) (by simp)
    (State.removeEntries_subset sel s)
  countdown s hm h := h.of_entries (unitsKeep_modes.countdown s hm h.modes) (by simp) (by simp)
    (fun e he => by
      rw [State.countdown_eq] at he
      obtain ⟨e', he', rfl⟩ := List.mem_map.1 he
      exact h.entries e' (List.mem_of_mem_filter he')) fun _ hne => absurd hm hne
  channels b s hb h := h.of_chans h.modes h.empty (fun _ => id) (fun c => (hb c).mode) fun c => (hb c).sound (h.sound c)
  release b s hb hbefore h := by
    refine h.of_chans h.modes h.empty (fun _ => id) (fun c => (State.applyReleased_layout _ s c).1) fun c => ?_
    simp only [State.applyReleased, Bank.get_mapId]
    refine (h.sound c).foldl_release fun e he => ?_
    obtain ⟨hdue, hc⟩ := List.mem_filter.1 he
    have hc' : e.channel = c := by simpa using hc
    rw [hb c, ← hc']
    exact hbefore.entries e (List.mem_of_mem_filter hdue)
  clearLatches sel s _ h := by
    refine h.of_chans h.modes h.empty (fun _ => id) (fun c => (State.clearLatches_mode sel s c).1) fun c => ?_
    simp only [State.clearLatches, State.loadCompare, Bank.get_mapId]
    split
    · exact (Channel.follows_halt _).sound (h.sound c)
    · exact h.sound c
  trip i l s hm h := h.of_subset (unitsKeep_modes.trip i l s hm h.modes) (by simp) (by simp) (by
    rw [State.tripMembers_entries]; exact fun _ => List.mem_of_mem_filter)
  moveIl i l s _ h := ⟨h.modes, h.empty, h.entries, h.sound⟩
  layOut body s hm h := by
    have hnone : (s.laidOut body).queue.entries = [] :=
      State.tripActive_induction (P := fun t => t.queue.entries = []) _ (h.empty (by simp [hm])) fun i t ht => by
        rw [State.tripMembers_entries, ht]; rfl
    refine ⟨unitsKeep_modes.layOut body s hm h.modes, fun _ => hnone, fun e he => absurd he (by simp [hnone]), fun c => ?_⟩
    simp only [State.laidOut, State.tripActive_chans, State.dropUnusedTrips, State.clearCaptures_chans,
      State.layInterlocks, State.layChannels, Bank.get_mapId]
    split
    · exact (h.sound c).layOut _
    · exact h.sound c
  frameEndDue b s h := ⟨h.modes, h.empty, h.entries, h.sound⟩
  clockTimebase s h := ⟨unitsKeep_modes.clockTimebase s h.modes, h.empty, h.entries, h.sound⟩
  boundary forced s hm h := ⟨unitsKeep_modes.boundary forced s hm h.modes, h.empty, h.entries, h.sound⟩
  restart s _ h := ⟨h.modes, h.empty, h.entries, h.sound⟩
  setTimebase g s _ _ h := ⟨h.modes, h.empty, h.entries, h.sound⟩
  stageTimebase g s _ _ _ h := ⟨h.modes, h.empty, h.entries, h.sound⟩
  goRun a b s hm ht h := ⟨unitsKeep_modes.goRun a b s hm ht h.modes, fun _ => rfl, nofun, h.sound⟩
  stopRun s hm he hu h := ⟨unitsKeep_modes.stopRun s hm he hu h.modes, fun _ => he, h.entries, h.sound⟩
  goCheck s hm h := ⟨unitsKeep_modes.goCheck s hm h.modes, fun _ => h.empty (by simp [hm]), h.entries, h.sound⟩
  stopCheck s hm h := ⟨unitsKeep_modes.stopCheck s hm h.modes, fun _ => h.empty (by simp [hm]), h.entries, h.sound⟩

/-- Settles O59: setpoints are clamped where they are applied, ramps step between level and target, and every CLAMP
and default clamp in force was checked on its way in. -/
theorem levelsStayClamped : Obligations.LevelsStayClamped := fun s t h he =>
  (levelsWf_iff t).2 (unitsKeep_levelsSound.step (fun cause s _ => .takeReset cause s)
    (fun _ _ _ h => ⟨h.modes, h.empty, h.entries, h.sound⟩) s t ((levelsWf_iff s).1 h) he)

end Sys2Proof.Machine
end

section
/-! SUPPORT. The Notice Queue's form and the request buffer, as conditions that events keep; and every condition right
after reset. -/

namespace Sys2Proof.Machine

/-! ### What an operation on the queue offers -/

/-- An operation leaves the Link Unit, or offers one FLOW occurrence. -/
def FlowOffered (l m : Link) : Prop := m = l ∨ ∃ hold, m = l.offer (.flow hold)

theorem State.insert_flow (o : Origin) (p : Posting) (s : State) : FlowOffered s.link (s.insert o p).link := by
  unfold State.insert
  split
  · exact .inl rfl
  · unfold State.holdAfterAppend
    split
    · exact .inr ⟨true, rfl⟩
    · exact .inl rfl

theorem flowOfRemoval_flow (q : PostingQueue) (es : List Entry) (l : Link) : FlowOffered l (flowOfRemoval q es l) := by
  unfold flowOfRemoval
  split
  · exact .inr ⟨false, rfl⟩
  · exact .inl rfl

theorem State.removeEntries_flow (sel : Entry → Bool) (s : State) : FlowOffered s.link (s.removeEntries sel).link := by
  rw [State.removeEntries_eq]; exact flowOfRemoval_flow _ _ _

theorem State.countdown_flow (s : State) : FlowOffered s.link s.countdown.link := by
  rw [State.countdown_eq]; exact flowOfRemoval_flow _ _ _

/-- A condition on the Link Unit that offers keep holds after a trip. -/
theorem State.tripMembers_link {P : Link → Prop} (hoffer : ∀ (l : Link) (o : Occurrence), o.kind ≠ 0 → P l → P (l.offer o))
    (i : IlId) (s : State) (h : P s.link) : P (s.tripMembers i).link := by
  by_cases hm : s.memberMask i = 0
  · rw [State.tripMembers_of_none hm]; exact h
  · rw [State.tripMembers_of_members hm]
    refine hoffer _ (.trip ..) Nat.one_ne_zero ?_
    rcases State.removeEntries_flow (fun e => s.member i e.channel) (s.setLatches i) with hl | ⟨b, hl⟩ <;> rw [hl]
    · exact h
    · exact hoffer _ _ (by simp [Occurrence.kind]) h

/-! ### The Notice Queue's form (R188) -/

/-- At most one notice of each kind, with counts from 1 to 255. -/
def Link.NoticesOk (l : Link) : Prop :=
  (l.notices.map fun n => n.occ.kind).Nodup ∧ ∀ n ∈ l.notices, 1 ≤ n.count ∧ n.count ≤ 255

theorem Link.NoticesOk.offer {l : Link} (h : l.NoticesOk) (o : Occurrence) (ho : o.kind ≠ 0) : (l.offer o).NoticesOk :=
  ⟨Link.offer_nodup l o ho h.1, Link.offer_counts l o h.2⟩

theorem Link.NoticesOk.sublist {l m : Link} (h : l.NoticesOk) (hm : m.notices.Sublist l.notices) : m.NoticesOk :=
  ⟨h.1.sublist (hm.map _), fun n hn => h.2 n (hm.subset hn)⟩

theorem Link.NoticesOk.flow {l m : Link} (h : l.NoticesOk) (hm : FlowOffered l m) : m.NoticesOk := by
  rcases hm with rfl | ⟨b, rfl⟩
  · exact h
  · exact h.offer _ (by simp [Occurrence.kind])

/-- The Notice Queue's form, and nothing pending in STARTING. -/
structure NoticesSound (s : State) : Prop where
  modes : ModesAgree s
  ok : s.link.NoticesOk
  starting : s.ctl.mode = .starting → s.link.notices = []

theorem noticesWf_iff (s : State) : NoticesWf s ↔ NoticesSound s :=
  ⟨fun ⟨a, b, c, d⟩ => ⟨a, ⟨b, c⟩, d⟩, fun ⟨a, ⟨b, c⟩, d⟩ => ⟨a, b, c, d⟩⟩

/-- Outside STARTING the form is all that is asked. -/
theorem NoticesSound.of_ok {t : State} (hmodes : ModesAgree t) (hok : t.link.NoticesOk) (hm : t.ctl.mode ≠ .starting) :
    NoticesSound t := ⟨hmodes, hok, fun h => absurd h hm⟩

theorem NoticesSound.takeReset (cause : ResetCause) (s : State) : NoticesSound (s.takeReset cause) :=
  ⟨ModesAgree.takeReset cause s, ⟨by simp [Link.reset], by simp [Link.reset]⟩, fun _ => rfl⟩

theorem NoticesSound.link {s : State} (h : NoticesSound s) (l : Link) (hl : l.notices.Sublist s.link.notices) :
    NoticesSound { s with link := l } :=
  ⟨h.modes, h.ok.sublist hl, fun hm => List.sublist_nil.1 (h.starting hm ▸ hl)⟩

theorem unitsKeep_noticesSound : UnitsKeep NoticesSound where
  quiet s t q h := ⟨unitsKeep_modes.quiet s t q h.modes, h.ok.sublist q.link.notices, fun hm =>
    List.sublist_nil.1 (h.starting (q.mode ▸ hm) ▸ q.link.notices)⟩
  startUp cause rate s hm h := by
    refine .of_ok (unitsKeep_modes.startUp cause rate s hm h.modes) ?_ nofun
    simp [Link.NoticesOk, Link.offer, Occurrence.kind, h.starting hm]
  offer o s ho hl h := .of_ok h.modes (h.ok.offer o ho) (h.modes.live hl)
  reorder l s hl h := ⟨h.modes, ⟨(hl.map _).nodup_iff.2 h.ok.1, fun n hn => h.ok.2 n (hl.subset hn)⟩, fun hm => by
    have := h.starting hm
    rw [this] at hl
    exact hl.eq_nil⟩
  unit u s hu h := ⟨unitsKeep_modes.unit u s hu h.modes, h.ok, h.starting⟩
  insert o p s hr hp hroom h := .of_ok (unitsKeep_modes.insert o p s hr hp hroom h.modes)
    (h.ok.flow (State.insert_flow o p s)) (by simp [h.modes.inRun hr])
  removeEntries sel s hm h := .of_ok (unitsKeep_modes.removeEntries sel s hm h.modes)
    (h.ok.flow (State.removeEntries_flow sel s)) (by simp [hm])
  countdown s hm h := .of_ok (unitsKeep_modes.countdown s hm h.modes) (h.ok.flow (State.countdown_flow s)) (by simp [hm])
  channels b s _ h := ⟨h.modes, h.ok, h.starting⟩
  release b s _ _ h := ⟨h.modes, h.ok, h.starting⟩
  clearLatches sel s _ h := ⟨h.modes, h.ok, h.starting⟩
  trip i l s hm h := .of_ok (unitsKeep_modes.trip i l s hm h.modes)
    (State.tripMembers_link (P := Link.NoticesOk) (fun _ o ho hl => hl.offer o ho) i (s.moveIl i l) h.ok) (by simpa using hm)
  moveIl i l s _ h := ⟨h.modes, h.ok, h.starting⟩
  layOut body s hm h := by
    have hmodes := unitsKeep_modes.layOut body s hm h.modes
    have hmode : (s.laidOut body).ctl.mode = .setup := by
      simpa [State.laidOut, State.layChannels, State.layInterlocks, State.clearCaptures, State.dropUnusedTrips] using hm
    refine .of_ok hmodes ?_ (by simp [hmode])
    exact State.tripActive_induction (P := fun t => t.link.NoticesOk) _ h.ok fun i t ht =>
      State.tripMembers_link (P := Link.NoticesOk) (fun _ o ho hl => hl.offer o ho) i t ht
  frameEndDue b s h := ⟨h.modes, h.ok, h.starting⟩
  clockTimebase s h := ⟨unitsKeep_modes.clockTimebase s h.modes, h.ok, h.starting⟩
  boundary forced s hm h := ⟨unitsKeep_modes.boundary forced s hm h.modes, h.ok, h.starting⟩
  restart s _ h := ⟨h.modes, h.ok, h.starting⟩
  setTimebase g s _ _ h := ⟨h.modes, h.ok, h.starting⟩
  stageTimebase g s _ _ _ h := ⟨h.modes, h.ok, h.starting⟩
  goRun a b s hm ht h := .of_ok (unitsKeep_modes.goRun a b s hm ht h.modes) h.ok nofun
  stopRun s hm he hu h := .of_ok (unitsKeep_modes.stopRun s hm he hu h.modes) h.ok nofun
  goCheck s hm h := .of_ok (unitsKeep_modes.goCheck s hm h.modes) h.ok nofun
  stopCheck s hm h := .of_ok (unitsKeep_modes.stopCheck s hm h.modes) h.ok nofun

/-! ### The request buffer (R181) -/

/-- The requests that wait, the one in service and the transmitter are those of `l`, and RESTART stays taken. -/
def SameRequests (l : Link) (s : State) : Prop :=
  s.link.waiting = l.waiting ∧ s.link.service = l.service ∧ (l.restarting = true → s.link.restarting = true)
  ∧ s.link.tx = l.tx ∧ s.link.lastFrame = l.lastFrame

theorem SameRequests.refl (s : State) : SameRequests s.link s := ⟨rfl, rfl, id, rfl, rfl⟩

theorem SameRequests.of_notices {l : Link} {s t : State} (h : SameRequests l s)
    (ht : t.link = { s.link with notices := t.link.notices }) : SameRequests l t := by
  unfold SameRequests; rw [ht]; exact h

theorem SameRequests.offer {l : Link} {s : State} (h : SameRequests l s) (o : Occurrence) :
    SameRequests l (s.offer o) := h.of_notices (Link.offer_eq _ o)

theorem FlowOffered.eq {l m : Link} (h : FlowOffered l m) : m = { l with notices := m.notices } := by
  rcases h with rfl | ⟨b, rfl⟩
  · rfl
  · exact Link.offer_eq _ _

theorem SameRequests.tripMembers {l : Link} {s : State} (h : SameRequests l s) (i : IlId) :
    SameRequests l (s.tripMembers i) := by
  refine h.of_notices ?_
  exact State.tripMembers_link (P := fun m => m = { s.link with notices := m.notices })
    (fun m o _ hm => by rw [Link.offer_eq, hm]) i s rfl

theorem unitsKeep_sameRequests (l : Link) : UnitsKeep (SameRequests l) where
  quiet s t q h := by
    obtain ⟨hwait, hserv, hrestart, htx, hlast⟩ := h
    exact ⟨q.link.waiting.trans hwait, q.link.service.trans hserv, fun hr => q.link.restarting (hrestart hr),
      q.link.tx.trans htx, q.link.lastFrame.trans hlast⟩
  startUp cause rate s _ h := h.offer (.ready cause rate)
  offer o s _ _ h := h.offer o
  reorder l s _ h := h
  unit u s _ h := h
  insert o p s _ _ _ h := h.of_notices (State.insert_flow o p s).eq
  removeEntries sel s _ h := h.of_notices (State.removeEntries_flow sel s).eq
  countdown s _ h := h.of_notices (State.countdown_flow s).eq
  channels b s _ h := h
  release b s _ _ h := h
  clearLatches sel s _ h := h
  trip i l s _ h := SameRequests.tripMembers (s := s.moveIl i l) h i
  moveIl i l s _ h := h
  layOut body s _ h := State.tripActive_induction _ h fun i t ht => ht.tripMembers i
  frameEndDue b s h := h
  clockTimebase s h := h
  boundary forced s _ h := h
  restart s _ h := h
  setTimebase g s _ _ h := h
  stageTimebase g s _ _ _ h := h
  goRun a b s _ _ h := h
  stopRun s _ _ _ h := h
  goCheck s _ h := h
  stopCheck s _ h := h

/-- The request buffer's form, of a Link Unit. -/
def Link.BufferOk (l : Link) : Prop :=
  l.waiting.length ≤ 4 ∧ (l.service = none → l.restarting = false → l.waiting = [])

theorem SameRequests.bufferOk {l : Link} {s : State} (h : SameRequests l s) (hl : l.BufferOk) : s.link.BufferOk := by
  obtain ⟨hw, hv, hr, -⟩ := h
  refine ⟨hw ▸ hl.1, fun hs hn => hw.trans (hl.2 (hv.symm.trans hs) ?_)⟩
  by_contra hne
  exact absurd (hr (by simpa using hne)) (by simp [hn])

theorem Link.BufferOk.congr {l m : Link} (h : l.BufferOk) (hw : m.waiting = l.waiting)
    (hv : m.service.isNone = l.service.isNone) (hr : m.restarting = l.restarting) : m.BufferOk := by
  refine ⟨hw ▸ h.1, fun hs hn => hw.trans (h.2 ?_ (hr.symm.trans hn))⟩
  rw [← Option.isNone_iff_eq_none, ← hv, hs]
  rfl

/-! ### What the transmitter leaves of the buffer -/

/-- The transmitter leaves the waiting requests, whether a request is in service, and RESTART. -/
structure BufferKept (s t : State) : Prop where
  waiting : t.link.waiting = s.link.waiting := by rfl
  service : t.link.service.isNone = s.link.service.isNone := by rfl
  restarting : t.link.restarting = s.link.restarting := by rfl

theorem BufferKept.trans {s t u : State} (h : BufferKept s t) (g : BufferKept t u) : BufferKept s u :=
  ⟨g.waiting.trans h.waiting, g.service.trans h.service, g.restarting.trans h.restarting⟩

theorem BufferKept.bufferOk {s t : State} (h : BufferKept s t) (hs : s.link.BufferOk) : t.link.BufferOk :=
  hs.congr h.waiting h.service h.restarting

theorem bufferKept_pick (n : Nat) (s : State) : BufferKept s (s.pick n).2 := by
  rw [State.pick_snd]; exact {}

theorem bufferKept_build (s : State) : BufferKept s s.build := by
  unfold State.build
  split
  · exact {}
  next v hv =>
  split
  · exact {}
  · exact { service := by simp [hv] }

theorem bufferKept_mayBuild (s : State) : BufferKept s s.mayBuild := by
  unfold State.mayBuild
  split
  · dsimp only
    split
    · exact (bufferKept_pick 2 s).trans (bufferKept_build _)
    · exact bufferKept_pick 2 s
  · exact {}

theorem bufferKept_beginReply (s : State) : BufferKept s s.beginReply := by
  unfold State.beginReply
  dsimp only
  split
  · exact (bufferKept_build s).trans {}
  · exact bufferKept_build s

theorem bufferKept_beginNotice (s : State) : BufferKept s { s with link := s.link.beginNotice } := by
  refine ⟨?_, ?_, ?_⟩ <;> dsimp only [Link.beginNotice] <;> split <;> rfl

theorem bufferKept_noticeFirst (s : State) : BufferKept s s.noticeFirst :=
  (bufferKept_mayBuild s).trans (bufferKept_beginNotice _)

theorem bufferKept_kick (s : State) : BufferKept s s.kick := by
  unfold State.kick
  split
  · exact bufferKept_mayBuild s
  · split
    · exact {}
    · exact bufferKept_beginReply s
    · exact bufferKept_beginNotice s
    · dsimp only
      split
      · exact (bufferKept_pick 2 s).trans (bufferKept_beginReply _)
      · exact (bufferKept_pick 2 s).trans (bufferKept_noticeFirst _)

theorem bufferKept_choose (d : FrameClass) (s : State) : BufferKept s (s.choose d) := by
  have hdone : BufferKept s { s with link := { s.link with lastFrame := d, tx := .idle } } := {}
  unfold State.choose
  dsimp only
  split
  · exact hdone
  · exact hdone.trans (bufferKept_beginReply _)
  · exact hdone.trans (bufferKept_beginNotice _)
  · split
    · exact hdone.trans (bufferKept_noticeFirst _)
    · exact hdone.trans (bufferKept_beginReply _)

/-- A request that is taken is in service, and the others wait as before. -/
theorem State.answer_waiting (f : Frame) (s : State) :
    (s.answer f).link.waiting = s.link.waiting ∧ (s.answer f).link.service ≠ none := by
  have hsame : SameRequests s.link (s.judge f).state :=
    (unitsKeep_sameRequests s.link).requestsKeep.judge f s (.refl _)
  unfold State.answer
  dsimp only
  split
  · have hb := bufferKept_build { (s.judge f).state with
      link := { (s.judge f).state.link with
        service := some (Service.mk f (s.judge f).result.code (s.judge f).fields none) } }
    exact ⟨hb.waiting.trans hsame.1, fun hn => by simpa [hn] using hb.service⟩
  · exact ⟨hsame.1, nofun⟩

/-- Whatever waits in a buffer of at most four, the decoder leaves nothing waiting beside a free place (R181). -/
theorem State.serve_bufferOk (s : State) (h : s.link.waiting.length ≤ 4) : s.serve.link.BufferOk := by
  unfold State.serve
  split
  · next f fs hs hr hw =>
    obtain ⟨hwait, hserv⟩ := State.answer_waiting f { s with link := { s.link with waiting := fs } }
    refine ⟨?_, fun hn => absurd hn hserv⟩
    rw [hwait]
    rw [hw, List.length_cons] at h
    show fs.length ≤ 4
    omega
  · next hnot =>
    refine ⟨h, fun hs hr => ?_⟩
    cases hw : s.link.waiting with
    | nil => rfl
    | cons f fs => exact (hnot f fs hs hr hw).elim

theorem Link.accept_waiting_length (l : Link) (f : Frame) (h : l.waiting.length ≤ 4) :
    (l.accept f).waiting.length ≤ 4 := by
  unfold Link.accept
  split
  · next hlt => simp only [List.length_append, List.length_singleton, Config.waitingCapacity] at hlt ⊢; omega
  · exact h

theorem State.arrive_bufferOk (f : Frame) (s : State) (h : s.link.BufferOk) : (s.arrive f).link.BufferOk :=
  (bufferKept_kick _).bufferOk (State.serve_bufferOk _ (Link.accept_waiting_length _ f h.1))

theorem State.deliver_bufferOk (k t : Byte) (body : List Byte) (s : State) (h : s.link.BufferOk) :
    (s.deliver k t body).link.BufferOk := by
  unfold State.deliver
  split
  · exact h
  · exact State.arrive_bufferOk _ s h

theorem State.receive_bufferOk (b : Byte) (s : State) (h : s.link.BufferOk) : (s.receive b).link.BufferOk := by
  unfold State.receive
  split
  · exact h
  · unfold State.takeRx
    dsimp only
    split
    · exact h
    · exact h
    · exact h
    · exact State.arrive_bufferOk _ _ h

theorem State.breakRx_bufferOk (s : State) (h : s.link.BufferOk) : s.breakRx.link.BufferOk := by
  unfold State.breakRx
  split
  · exact h
  · refine h.congr ?_ ?_ ?_ <;> dsimp only [Link.breakFrame] <;> split <;> rfl

theorem State.replySent_bufferOk (s : State) (h : s.link.BufferOk) : s.replySent.link.BufferOk := by
  have hlen : ∀ t, BufferKept { s with link := { s.link with service := none, tx := .idle, lastFrame := .reply } } t →
      t.link.waiting.length ≤ 4 := fun t ht => by rw [ht.waiting]; exact h.1
  unfold State.replySent
  dsimp only
  split
  · split
    · exact (bufferKept_kick _).bufferOk
        (State.serve_bufferOk _ (hlen _ ((bufferKept_pick 2 _).trans (bufferKept_choose _ _))))
    · exact (bufferKept_choose _ _).bufferOk (State.serve_bufferOk _ (hlen _ (bufferKept_pick 2 _)))
  · exact (bufferKept_kick _).bufferOk (State.serve_bufferOk _ (hlen _ (bufferKept_choose _ _)))

/-- What the units' operations do leaves the buffer's form. -/
theorem bufferOk_of_same {s t : State} (h : s.link.BufferOk) (ht : SameRequests s.link t) : t.link.BufferOk :=
  ht.bufferOk h

theorem State.sampleEvent_bufferOk (v : Levels) (s : State) (h : s.link.BufferOk) : (s.sampleEvent v).link.BufferOk := by
  have hu := unitsKeep_sameRequests s.link
  have hpins : ∀ (n : Nat) (es : List PinEvent) (t : State), SameRequests s.link t →
      SameRequests s.link (State.takePins n es t) := by
    intro n
    induction n with
    | zero => exact fun _ _ ht => ht
    | succ n ih =>
      intro es t ht
      have hp : SameRequests s.link (t.pick es.length).2 := by rw [State.pick_snd]; exact ht
      unfold State.takePins
      split
      · exact ht
      · dsimp only
        split
        · exact hp
        · exact ih _ _ (hu.takePin _ _ hp)
  exact (bufferKept_kick _).bufferOk (bufferOk_of_same h (hpins _ _ _ (hu.readSample v s (.refl _))))

theorem State.frameEvent_bufferOk (s : State) (h : s.link.BufferOk) : s.frameEvent.link.BufferOk :=
  (bufferKept_kick _).bufferOk (bufferOk_of_same h ((unitsKeep_sameRequests s.link).takeFrameEnd s (.refl _)))

theorem State.endStartingEvent_bufferOk (r1 r0 : Level) (s : State) (h : s.link.BufferOk) :
    (s.endStartingEvent r1 r0).link.BufferOk := by
  unfold State.endStartingEvent
  split
  · refine (bufferKept_kick _).bufferOk (h.congr ?_ ?_ ?_) <;>
      simp [State.endStarting, State.offer, Link.offer, Occurrence.kind]
  · exact h

theorem State.takeDue_bufferOk (s : State) (h : s.link.BufferOk) : s.takeDue.link.BufferOk := by
  have hsample : ∀ t : State, t.link.BufferOk → t.takeSampleDue.link.BufferOk := by
    intro t ht
    unfold State.takeSampleDue
    split
    · exact State.sampleEvent_bufferOk _ t ht
    · exact ht
  have hframe : ∀ t : State, t.link.BufferOk → t.takeFrameDue.link.BufferOk := by
    intro t ht
    unfold State.takeFrameDue
    split
    · exact State.frameEvent_bufferOk t ht
    · exact ht
  have hpick : (s.pick 2).2.link.BufferOk := by simpa using h
  have hboth : s.takeBoth.link.BufferOk := by
    unfold State.takeBoth
    split
    · dsimp only
      split
      · exact hsample _ (hframe _ hpick)
      · exact hframe _ (hsample _ hpick)
    · exact hsample _ (hframe _ h)
  exact State.endStartingEvent_bufferOk _ _ _ hboth

theorem State.clocks_bufferOk (n : Nat) (s : State) (h : s.link.BufferOk) : (State.clocks n s).link.BufferOk := by
  induction n generalizing s with
  | zero => exact h
  | succ n ih => exact ih _ (State.takeDue_bufferOk _ h)

theorem bufferOk_reset (cause : ResetCause) (s : State) : (s.takeReset cause).link.BufferOk := by
  simp [Link.BufferOk, Link.reset]

/-- Every command keeps the request buffer's form. -/
theorem exec_bufferOk (c : Instr) (s t : State) (h : s.link.BufferOk) (he : exec c s = .next t) : t.link.BufferOk := by
  cases hc : requestFrame c with
  | some f =>
    cases (exec_eq_deliver c f s hc).symm.trans he
    exact State.deliver_bufferOk _ _ _ s h
  | none =>
  cases c with
  | powerOn | resetPin => cases he; exact bufferOk_reset _ _
  | resetPinRelease => simp only [exec, execResetPinRelease] at he; split at he <;> cases he <;> exact h
  | endOfStarting r1 r0 => cases he; exact State.endStartingEvent_bufferOk _ _ s h
  | sample ss il home c => cases he; exact State.sampleEvent_bufferOk _ s h
  | frameEnd => cases he; exact State.frameEvent_bufferOk s h
  | checkStepEnd =>
    simp only [exec, execCheckStepEnd] at he
    split at he <;> cases he
    · exact State.frameEvent_bufferOk s h
    · exact h
  | compareMatch ch => simp only [exec, execCompareMatch] at he; split at he <;> cases he <;> exact h
  | deadTimeExpiry ch out => simp only [exec, execDeadTimeExpiry] at he; split at he <;> cases he <;> exact h
  | wantedTimeExpiry ch out => simp only [exec, execWantedTimeExpiry] at he; split at he <;> cases he <;> exact h
  | framingError cause =>
    cases cause with
    | badStop => cases he; exact State.breakRx_bufferOk s h
    | lenAbove b =>
      simp only [exec, execFramingError] at he
      split at he <;> cases he
      · exact State.receive_bufferOk b s h
      · exact h
  | interByteGap => cases he; exact State.breakRx_bufferOk s h
  | frameComplete b =>
    simp only [exec, execFrameComplete] at he
    split at he <;> cases he
    · exact State.receive_bufferOk b s h
    · exact h
  | frameSent =>
    simp only [exec, execFrameSent] at he
    split at he
    · cases he; exact h
    · cases he; exact (bufferKept_choose _ s).bufferOk h
    · split at he <;> cases he
      · exact bufferOk_reset _ s
      · exact State.replySent_bufferOk s h
  | byteReceived b => cases he; exact State.receive_bufferOk b s h
  | tick =>
    simp only [exec, execTick] at he
    split at he <;> cases he
    · exact h
    · exact State.clocks_bufferOk _ _ (State.takeDue_bufferOk s h)
  | _ => cases hc

theorem step_bufferOk (s t : State) (h : s.link.BufferOk) (he : step s = .next t) : t.link.BufferOk := by
  cases hp : s.pending with
  | nil =>
    cases (step_of_nil s hp).symm.trans he
    exact State.clocks_bufferOk 1 _ (State.takeDue_bufferOk s h)
  | cons c cs => exact exec_bufferOk c { s with pending := cs } t h ((step_of_cons c cs s hp).symm.trans he)

/-- Settles O58: notices come by offers that merge by kind, and leave; a request is taken as soon as the decoder's
place is free. -/
theorem noticesAndBufferStayBounded : Obligations.NoticesAndBufferStayBounded := fun s t hn hb he =>
  ⟨(noticesWf_iff t).2 (unitsKeep_noticesSound.step (fun cause s _ => .takeReset cause s)
    (fun l _ hl h => h.link l hl) s t ((noticesWf_iff s).1 hn) he), step_bufferOk s t hb he⟩

/-! ### Right after reset -/

theorem State.takeReset_reset : State.reset.takeReset .power = State.reset := rfl

/-- Settles O60: each condition holds after a reset of any cause. -/
theorem conditionsHoldAtReset : Obligations.ConditionsHoldAtReset :=
  ⟨eventsKeep_apart.reset .power State.reset (by intro c; simp [State.reset, Out.reset]),
    QueueWf.takeReset .power State.reset,
    (queueAgrees_iff _).2 (.of_empty (ModesAgree.takeReset .power State.reset) rfl),
    TripsWf.takeReset .power State.reset,
    (timebaseWf_iff _).2 (.takeReset .power State.reset),
    (noticesWf_iff _).2 (.takeReset .power State.reset),
    bufferOk_reset .power State.reset,
    (levelsWf_iff _).2 (.takeReset .power State.reset)⟩

end Sys2Proof.Machine
end

section
/-! SUPPORT. What a channel shows at its pins, in the forms that the statements ask for; then the drive clock of an
empty queue, the resets, the end of STARTING and the frame end. -/

namespace Sys2Proof.Machine

/-! ### What is wanted in each drive state -/

theorem State.wants_of_quiet {s : State} {c : ChanId} (hm : s.ctl.mode ≠ .starting)
    (hd : s.driveState c = .unused ∨ s.driveState c = .idle ∨ s.driveState c = .blocked) (ref : Bool) (side : Side) :
    s.wants c ref side = some (false, false, false) := by
  unfold State.wants
  rw [if_neg hm]
  rcases hd with hd | hd | hd <;> rw [hd] <;> rfl

theorem State.driveState_of_unused {s : State} {c : ChanId} (h : s.used c = false) : s.driveState c = .unused := by
  simp [State.driveState, h]

/-! ### What the pins show -/

/-- Outputs that are wanted inactive are INACTIVE at once (R79). -/
theorem Shows.inactive {s : State} {c : ChanId} {o u : Out} {d : Bool} (h : Shows s c o u)
    (hw : ∀ ref side, s.wants c ref side = some (false, false, d)) : u.pinA = .inactive ∧ u.pinB = .inactive := by
  obtain ⟨_, _, _, h⟩ := h
  rw [hw] at h
  obtain ⟨_, _, _, _, hA, hB, hA', hB', _⟩ := h
  exact ⟨(hA' fun g => absurd (hA.1 g).1 (by simp)).1, (hB' fun g => absurd (hB.1 g).1 (by simp)).1⟩

/-- Outputs of a channel that is UNUSED, IDLE or BLOCKED are INACTIVE (R82). -/
theorem Shows.inactive_of_quiet {s : State} {c : ChanId} {o u : Out} (h : Shows s c o u) (hm : s.ctl.mode ≠ .starting)
    (hd : s.driveState c = .unused ∨ s.driveState c = .idle ∨ s.driveState c = .blocked) :
    u.pinA = .inactive ∧ u.pinB = .inactive :=
  h.inactive (State.wants_of_quiet hm hd)

/-- Outputs of which nothing is wanted are RELEASED (R84, R88). -/
theorem Shows.released {s : State} {c : ChanId} {o u : Out} (h : Shows s c o u)
    (hw : ∀ ref side, s.wants c ref side = none) : u.pinA = .released ∧ u.pinB = .released := by
  obtain ⟨_, _, _, h⟩ := h
  rw [hw] at h
  rw [h]
  exact ⟨rfl, rfl⟩

/-- The compare value and the side of a settled record are those it had. -/
theorem Shows.kept {s : State} {c : ChanId} {o u : Out} (h : Shows s c o u) :
    u.compare = o.compare ∧ u.side = o.side := by
  obtain ⟨h, _⟩ := h
  rw [h]
  exact ⟨rfl, rfl⟩

/-- What a channel shows reads neither the link nor the numbering of free choices. -/
theorem Shows.linkFree {s t : State} {c : ChanId} {o u : Out}
    (ht : t = { s with link := t.link, freeCount := t.freeCount }) (h : Shows s c o u) : Shows t c o u := by
  rw [ht]
  exact h.congr rfl rfl rfl rfl rfl

theorem State.driveState_linkFree {s t : State} (ht : t = { s with link := t.link, freeCount := t.freeCount })
    (c : ChanId) : t.driveState c = s.driveState c := by
  rw [ht]
  rfl

/-- Settling every channel makes it show its state (R66). -/
theorem State.settle_shows (s : State) (c : ChanId) : Shows s.settle c (s.outs.get c) (s.settle.outs.get c) :=
  State.settleOn_shows _ s c rfl

/-! ### The drive clock of an empty queue -/

/-- With neither a frame end, a sample nor the end of STARTING due, the pins follow and nothing else happens. -/
theorem State.takeDue_of_quiet {s : State} (hframe : s.tb.frameEndDue = false) (hsample : s.sampler.phase ≠ 16)
    (hstart : s.startingOver = false) : s.takeDue = s.settle := by
  have hboth : s.takeBoth = s := by
    simp [State.takeBoth, State.takeFrameDue, State.takeSampleDue, State.sampleDue, Config.samplePeriod, hframe, hsample]
  simp [State.takeDue, hboth, State.endStartingEvent, hstart]

theorem State.startingOver_eq_false {s : State}
    (h : s.ctl.mode = .starting → s.ctl.startCount < 32 ∨ s.pins.resetAsserted = true) : s.startingOver = false := by
  by_cases hm : s.ctl.mode = .starting
  · rcases h hm with hc | hr
    · have : s.ctl.startCount ≠ 32 := by omega
      simp [State.startingOver, Config.startSamples, this]
    · simp [State.startingOver, hr]
  · simp [State.startingOver, hm]

/-- Settles O2. The first part is `State.takeDue_dueTaken` and `State.clocks_clocks`; in the second nothing is due at
either end of the drive clock. -/
theorem emptyQueueIsOneDriveClock : Obligations.EmptyQueueIsOneDriveClock := by
  refine ⟨fun s h => ⟨s.takeDue, _, State.takeDue_dueTaken s, State.clocks_clocks 1 _, step_of_nil s h⟩, ?_⟩
  intro s hpend hsettled hframe hphase hstart hdiv
  have hstart' := State.startingOver_eq_false hstart
  have hbefore : s.takeDue = s := (State.takeDue_of_quiet hframe (by omega) hstart').trans hsettled
  have htb : s.tb.clock = if s.tb.run = .running then { s.tb with divider := s.tb.divider + 1 } else s.tb := by
    cases hr : s.tb.run
    · simp [Timebase.clock, hr]
    · simp [Timebase.clock, hr, hdiv hr]
  have hdue : s.tb.clock.frameEndDue = false := by rw [htb]; split <;> exact hframe
  have hmin : min (s.sampler.phase + 1) 16 = s.sampler.phase + 1 := by omega
  have hsample : s.driveClock.sampler.phase ≠ 16 := by
    show min (s.sampler.phase + 1) 16 ≠ 16
    omega
  have hafter : s.driveClock.takeDue = s.driveClock.settle := State.takeDue_of_quiet hdue hsample hstart'
  rw [step_of_nil s hpend, State.idle, hbefore]
  show Host.Outcome.next s.driveClock.takeDue = _
  rw [hafter]
  simp only [State.driveClock, Out.clock, countGap, Config.maxGap, Config.samplePeriod, Bool.and_eq_true,
    decide_eq_true_eq, htb, hmin]

/-! ### Resets and the end of STARTING -/

/-- Settles O3: every reset is `State.takeReset`, and the reset values are read off. -/
theorem resetsGiveEveryUnitItsValues : Obligations.ResetsGiveEveryUnitItsValues := by
  refine ⟨fun s => ⟨rfl, rfl, fun f htx hre => ?_⟩, rfl, rfl, fun c => ?_, fun i => ?_, rfl, rfl, rfl, rfl, rfl⟩
  · simp [exec, execFrameSent, htx, hre, State.takeReset]
  · refine ⟨Bank.get_fill .., Bank.get_fill .., Bank.get_fill .., Bank.get_fill ..⟩
  · exact Bank.get_fill ..

theorem rateCode_eq (r1 r0 : Level) :
    rateCode r1 r0 = BitVec.ofNat 2 ((if r1 = .high then 2 else 0) + (if r0 = .high then 1 else 0)) := by
  cases r1 <;> cases r0 <;> rfl

theorem State.startingOver_iff (s : State) :
    s.startingOver = true ↔ s.ctl.mode = .starting ∧ s.ctl.startCount = 32 ∧ s.pins.resetAsserted = false := by
  rw [State.startingOver, Bool.and_eq_true, Bool.and_eq_true, decide_eq_true_eq, decide_eq_true_eq, Bool.not_eq_true',
    and_assoc]
  rfl

/-- An UNUSED channel is driven INACTIVE from the end of STARTING on (R89). -/
theorem State.endStarting_unused (r1 r0 : Level) {s : State} {c : ChanId} (h : s.used c = false) :
    ((s.endStarting r1 r0).outs.get c).pinA = .inactive ∧ ((s.endStarting r1 r0).outs.get c).pinB = .inactive := by
  have hshow := State.settle_shows { s with
    pins := { s.pins with rate1 := r1, rate0 := r0 }
    ctl := { s.ctl with mode := .setup }
    link := { s.link with rate := some (rateCode r1 r0), rx := .hunting } } c
  exact hshow.inactive_of_quiet OpMode.noConfusion (Or.inl (State.driveState_of_unused h))

/-- Settles O5, by the cases of `State.endStartingEvent`. -/
theorem startingEndsInSetup : Obligations.StartingEndsInSetup := by
  refine ⟨fun s => ⟨fun h => ?_, fun h => ?_⟩, fun r1 r0 s => ⟨fun h => ?_, fun h => ?_⟩⟩
  · simp [exec, execResetPinRelease, h]
  · simp [exec, execResetPinRelease, h]
  · refine ⟨(s.endStarting r1 r0).kick, rateCode r1 r0, ?_, rateCode_eq r1 r0, ?_, fun c hc => ?_⟩
    · simp [exec, execEndOfStarting, State.endStartingEvent, (State.startingOver_iff s).2 h]
    · rw [State.kick_outs]
      exact State.kick_became (s.endStarting r1 r0)
    · rw [State.kick_outs]
      exact State.endStarting_unused r1 r0 hc
  · have : s.startingOver = false := by
      rw [← Bool.not_eq_true, State.startingOver_iff]
      exact h
    simp [exec, execEndOfStarting, State.endStartingEvent, this]

/-! ### Frame ends -/

/-- Moving to a visit leaves the Timebase, or stops it where the check completes (R16, R158, R163). -/
theorem State.nextVisit_tb (q : CheckParams) (vs : List (Pass × Nat)) (s : State) :
    (State.nextVisit q vs s).tb = s.tb ∨ (State.nextVisit q vs s).tb = s.tb.halt := by
  induction vs generalizing s with
  | nil =>
    right
    simp [State.nextVisit, State.completeCheck, State.leaveCheck]
  | cons v vs ih =>
    obtain ⟨p, place⟩ := v
    rw [State.nextVisit]
    split
    · exact ih _
    · split
      · exact ih _
      · exact Or.inl (State.beginStep_tb ..)

theorem State.endStep_tb (q : CheckParams) (p : Position) (s : State) :
    (State.endStep q p s).tb = s.tb ∨ (State.endStep q p s).tb = s.tb.halt := by
  rw [State.endStep_eq]
  have hk : (s.tested q p).tb = s.tb := by unfold State.tested; split <;> rfl
  split
  · exact Or.inl ((State.beginStep_tb ..).trans hk)
  · rw [← hk]
    exact State.nextVisit_tb ..

theorem State.checkBoundary_tb (s : State) : s.checkBoundary.tb = s.tb ∨ s.checkBoundary.tb = s.tb.halt := by
  unfold State.checkBoundary
  dsimp only
  split
  · split
    · exact State.endStep_tb ..
    · exact Or.inl rfl
  · exact Or.inl rfl

/-- What a frame boundary in CHECK leaves of the Timebase: the counters at 0 (R16). -/
theorem State.checkFrame_tb (s : State) : s.checkFrame.tb = { s.tb.restart with run := s.checkFrame.tb.run } := by
  have h := State.checkBoundary_tb { s with tb := s.tb.restart }
  have e : s.checkFrame.tb = (State.checkBoundary { s with tb := s.tb.restart }).tb := State.settle_tb _
  rw [e]
  rcases h with h | h <;> rw [h] <;> rfl

/-- A due frame end taken away, before its boundary. -/
def State.frameTaken (s : State) : State := { s with tb := { s.tb with frameEndDue := false } }

theorem State.takeFrameEnd_of_stopped {s : State} (h : s.tb.run = .stopped) : s.takeFrameEnd = s.frameTaken := by
  simp [State.takeFrameEnd, State.frameTaken, h]

theorem State.takeFrameEnd_of_run {s : State} (hr : s.tb.run = .running) (hm : s.ctl.mode = .run) :
    s.takeFrameEnd = State.runBoundary false false s.frameTaken := by
  simp [State.takeFrameEnd, State.frameTaken, hr, hm]

theorem State.takeFrameEnd_of_check {s : State} (hr : s.tb.run = .running) (hm : s.ctl.mode = .check) :
    s.takeFrameEnd = s.frameTaken.checkFrame := by
  simp [State.takeFrameEnd, State.frameTaken, hr, hm]

/-- Settles O11, by the cases of `State.takeFrameEnd`. -/
theorem frameEndRaisesBoundary : Obligations.FrameEndRaisesBoundary := by
  refine fun s => ⟨s.takeFrameEnd.kick, rfl, fun hr => ?_, fun hr hm => ?_, fun hr hm => ?_⟩
  · rw [State.takeFrameEnd_of_stopped hr]
    exact State.kick_became _
  · rw [State.takeFrameEnd_of_run hr hm]
    exact State.kick_became _
  · rw [State.takeFrameEnd_of_check hr hm]
    refine ⟨?_, ?_, ?_, ?_, ?_⟩
    · rw [State.kick_tb]
      exact State.checkFrame_tb _
    all_goals simp [State.frameTaken]

end Sys2Proof.Machine
end

section
/-! SUPPORT. The requests that a ready part takes: the decoder's five checks, and the requests that read state or
clear records. -/

namespace Sys2Proof.Machine

/-! ### A request that passes the decoder -/

/-- The decoder's checks 2 to 5 pass (R183). -/
def ReqKind.Passes (k : ReqKind) (body : List Byte) (m : ModeCtl) : Prop :=
  k.lenOk body = true ∧ k.modeOk m.mode = true ∧ k.orderOk m = true ∧ k.locked m = false

/-- A request that passes the decoder's checks on a ready part is answered by its unit (R183). -/
theorem exec_take {c : Instr} {f : Frame} {s : State} {k : ReqKind} (hc : requestFrame c = some f)
    (hr : s.ready = true) (hk : ReqKind.ofCode f.kind = some k) (h : k.Passes f.body s.ctl) :
    ∃ t, exec c s = .next t
      ∧ Taken c (k.take f.body s).result (k.take f.body s).fields (k.take f.body s).state t := by
  have hj := exec_taken c f s hc hr
  rwa [State.judge_take s f k hk h] at hj

/-- A request that the mode refuses (R171). -/
theorem exec_refusedState {c : Instr} {f : Frame} {s : State} {k : ReqKind} (hc : requestFrame c = some f)
    (hr : s.ready = true) (hk : ReqKind.ofCode f.kind = some k) (hl : k.lenOk f.body = true)
    (hm : k.modeOk s.ctl.mode = false) : ∃ t, exec c s = .next t ∧ Taken c .refusedState [] s t := by
  have hj := exec_taken c f s hc hr
  have e : s.judge f = .refuse .refusedState [] s := by simp [State.judge, hk, hl, hm]
  rwa [e] at hj

/-- What an answer's taking says of the state, whatever says which answer it is. -/
theorem Taken.of_answer {c : Instr} {a : Answer} {r : Result} {fields : List Byte} {s t : State}
    (h : Taken c a.result a.fields a.state t) (e : a = { result := r, fields := fields, state := s }) :
    Taken c r fields s t := by
  rw [e] at h
  exact h

/-- A taken request leaves the state of its effects outside the link and the numbering of free choices. -/
theorem Taken.linkFree {c : Instr} {r : Result} {fields : List Byte} {s t : State} (h : Taken c r fields s t) :
    t = { s with link := t.link, freeCount := t.freeCount } := by
  obtain ⟨_, _, h, _⟩ := h
  exact h

/-- The outputs after a taken request are those of its effects. -/
theorem Taken.outs {c : Instr} {r : Result} {fields : List Byte} {s t : State} (h : Taken c r fields s t) :
    t.outs = s.outs := by
  rw [h.linkFree]

theorem State.ready_mode {s : State} (h : s.ready = true) : s.ctl.mode ≠ .starting := ((State.ready_iff s).1 h).1

theorem inModes_all {m : OpMode} (h : m ≠ .starting) : inModes true true true m = true := by
  cases m
  · exact absurd rfl h
  all_goals rfl

theorem inModes_setup_run {m : OpMode} (h : m = .setup ∨ m = .run) : inModes true true false m = true := by
  rcases h with rfl | rfl <;> rfl

/-! ### Offering (R188) -/

/-- A notice that absorbs an occurrence, written out by kinds (R188). -/
theorem Notice.absorb_eq (n : Notice) (o : Occurrence) : n.absorb o =
    { count := min (n.count + 1) 255
      occ := match n.occ, o with
        | .trip _ x _, .trip j y r => .trip j (x ||| y) r
        | .channelEvent x, .channelEvent y => .channelEvent (x ||| y)
        | .accum x, .accum y => .accum (x ||| y)
        | _, o => o } := by
  obtain ⟨old, _⟩ := n
  cases old <;> cases o <;> rfl

/-- Settles O27, by the branches of `Link.offer`. -/
theorem occurrencesMergeByKind : Obligations.OccurrencesMergeByKind := by
  refine fun l o => ⟨fun h => ?_, fun h hm => ?_, fun h hm => ⟨fun hnew => ?_, fun hheld => ?_⟩⟩
  · simp [Link.offer, h]
  · simp [Link.offer, Link.admitsKind, h, hm]
  · have hany : (l.notices.any fun n => decide (n.occ.kind = o.kind)) = false := by
      simpa using hnew
    simp [Link.offer, Link.admitsKind, h, hm, hany]
  · have hany : (l.notices.any fun n => decide (n.occ.kind = o.kind)) = true := by
      simpa using hheld
    simp only [Link.offer, Link.admitsKind, h, hm, hany, if_false, if_true]
    exact congrArg (fun g => ({ l with notices := l.notices.map g } : Link)) (funext fun n =>
      congrArg (fun m => if n.occ.kind = o.kind then m else n) (n.absorb_eq o))

/-! ### Bytes of flags -/

/-- Bit `i` of a byte of flags. -/
theorem flagsByte_getLsbD (flags : List Bool) (i : Nat) (h : i < 8) : (flagsByte flags).getLsbD i = flags.getD i false := by
  unfold flagsByte
  rw [BitVec.getLsbD_setWidth, BitVec.getLsbD_ofBoolListLE]
  simp [h]

/-- The bits of a mode in two bits beside five flags (R194). -/
theorem modeFlags_bits : ∀ (m : Fin 4) (a b c d e : Bool),
    let w := natByte m.val ||| flagsByte [false, false, a, b, c, d, e]
    (w.extractLsb' 0 2).toNat = m.val ∧ w.getLsbD 2 = a ∧ w.getLsbD 3 = b ∧ w.getLsbD 4 = c ∧ w.getLsbD 5 = d
      ∧ w.getLsbD 6 = e ∧ w.getLsbD 7 = false := by
  decide

theorem State.anyTrip_iff (s : State) : s.anyTrip = true ↔ ∃ c : ChanId, (s.trips.get c).latch = true := by
  unfold State.anyTrip State.tripMask
  rw [decide_eq_true_eq, ne_eq, chanMask_eq_zero, not_forall]
  simp only [State.latched, Bool.not_eq_false]

theorem OpMode.code_eq (m : OpMode) : m.code = match m with
    | .starting => 0
    | .setup => 1
    | .run => 2
    | .check => 3 := by
  cases m <;> rfl

/-- Settles O29, from the bits of a mode beside five flags. -/
theorem statusByteShowsSixFacts : Obligations.StatusByteShowsSixFacts := by
  intro s _
  have hm : s.ctl.mode.code < 4 := by cases s.ctl.mode <;> decide
  obtain ⟨h0, h2, h3, h4, h5, h6, h7⟩ := modeFlags_bits ⟨s.ctl.mode.code, hm⟩ s.queue.hold s.anyTrip s.link.overrun
    (decide (s.seq.unit = .running)) (!s.link.notices.isEmpty)
  refine ⟨?_, h2, ?_, h4, ?_, ?_, h7⟩
  · exact h0.trans (OpMode.code_eq _)
  · rw [← State.anyTrip_iff, ← h3]
    rfl
  · rw [← decide_eq_true_iff (p := s.seq.unit = .running), ← h5]
    rfl
  · refine (Bool.eq_iff_iff.1 h6).trans ?_
    simp

/-! ### IDENTIFY and STATUS -/

theorem State.tripMask_eq {s : State} {m : Half} (h : MaskOf m fun c => (s.trips.get c).latch = true) :
    m = s.tripMask := h.eq_chanMask s.latched fun _ => Iff.rfl

/-- The byte of the interlock states is fixed by its four bits (R197). -/
theorem State.ilStates_eq {s : State} {b : Byte} (h : ∀ i : IlId, b.getLsbD i.val = true ↔ isActive (s.ils.get i))
    (hb : b.toNat < 16) : b = s.ilStates := by
  apply BitVec.eq_of_getLsbD_eq
  intro i hi
  rw [State.ilStates, flagsByte_getLsbD _ i hi]
  by_cases h4 : i < 4
  · have hbit : ((allIls.map fun j => (s.ils.get j).active).getD i false) = (s.ils.get ⟨i, h4⟩).active := by
      simp [allIls, List.getD, h4]
    rw [hbit, Bool.eq_iff_iff, Interlock.active_iff]
    exact h ⟨i, h4⟩
  · have hbit : ((allIls.map fun j => (s.ils.get j).active).getD i false) = false := by
      simp [allIls, List.getD, h4]
    rw [hbit, BitVec.getLsbD]
    refine Nat.testBit_lt_two_pow (hb.trans_le ?_)
    calc 16 = 2 ^ 4 := rfl
      _ ≤ 2 ^ i := Nat.pow_le_pow_right (by omega) (by omega)

theorem lineCode_eq (l : Option LineId) : lineCode l = match l with
    | some l => natByte l.val
    | none => 0xFF := by
  cases l <;> rfl

/-- Settles O30. -/
theorem identifyAndStatusReport : Obligations.IdentifyAndStatusReport := by
  intro tag s trips ils hr htrips hils hlt
  have hm := inModes_all (State.ready_mode hr)
  constructor
  · obtain ⟨t, he, ht⟩ := exec_take (k := .identify) rfl hr rfl ⟨rfl, hm, rfl, rfl⟩ (c := .identify tag [])
    exact ⟨t, he, ht⟩
  · obtain ⟨t, he, ht⟩ := exec_take (k := .status) rfl hr rfl ⟨rfl, hm, rfl, rfl⟩ (c := .status tag [])
    refine ⟨t, he, ht.of_answer ?_⟩
    rw [State.tripMask_eq htrips, State.ilStates_eq hils hlt]
    simp only [ReqKind.take, State.takeStatus, State.statusFields, lineCode_eq] <;> rfl

/-! ### LAYOUT_READ -/

/-- Reading a concatenation of pieces of one length. -/
theorem getElem?_flatMap_of_length {α β : Type} {f : α → List β} {n : Nat} (hf : ∀ a, (f a).length = n) (l : List α)
    (i j : Nat) (hj : j < n) : (l.flatMap f)[n * i + j]? = l[i]?.bind fun a => (f a)[j]? := by
  induction l generalizing i with
  | nil => simp
  | cons a l ih =>
    rw [List.flatMap_cons]
    cases i with
    | zero =>
      rw [Nat.mul_zero, Nat.zero_add, List.getElem?_append_left (by rw [hf]; exact hj)]
      rfl
    | succ i =>
      have e : n * (i + 1) + j - (f a).length = n * i + j := by
        rw [hf, Nat.mul_succ]
        omega
      rw [List.getElem?_append_right (by rw [hf, Nat.mul_succ]; omega), e, ih i]
      rfl

theorem Channel.layoutBytes_length (ch : Channel) : ch.layoutBytes.length = 2 := rfl

theorem Interlock.layoutBytes_length (i : Interlock) : i.layoutBytes.length = 3 := rfl

theorem length_flatMap_allChans (s : State) : (allChans.flatMap fun c => (s.chans.get c).layoutBytes).length = 32 := by
  simp [List.length_flatMap, Channel.layoutBytes_length, allChans]

theorem length_flatMap_allIls (s : State) : (allIls.flatMap fun i => (s.ils.get i).layoutBytes).length = 12 := by
  simp [List.length_flatMap, Interlock.layoutBytes_length, allIls]

theorem State.layoutBytes_length (s : State) : s.layoutBytes.length = 45 := by
  rw [State.layoutBytes, List.length_append, List.length_append, length_flatMap_allChans, length_flatMap_allIls]
  rfl

/-- The two bytes of a channel in the layout bytes (R198). -/
theorem State.layoutBytes_chan (s : State) (c : ChanId) (j : Nat) (hj : j < 2) :
    s.layoutBytes[2 * c.val + j]? = (s.chans.get c).layoutBytes[j]? := by
  have hc := c.isLt
  rw [State.layoutBytes, List.append_assoc,
    List.getElem?_append_left (by rw [length_flatMap_allChans]; omega),
    getElem?_flatMap_of_length (fun c => (s.chans.get c).layoutBytes_length) _ _ _ hj]
  simp [allChans]

/-- The three bytes of an interlock in the layout bytes (R198). -/
theorem State.layoutBytes_il (s : State) (i : IlId) (j : Nat) (hj : j < 3) :
    s.layoutBytes[32 + 3 * i.val + j]? = (s.ils.get i).layoutBytes[j]? := by
  have hi := i.isLt
  have e : 32 + 3 * i.val + j - 32 = 3 * i.val + j := by omega
  rw [State.layoutBytes, List.append_assoc,
    List.getElem?_append_right (by rw [length_flatMap_allChans]; omega), length_flatMap_allChans, e,
    List.getElem?_append_left (by rw [length_flatMap_allIls]; omega),
    getElem?_flatMap_of_length (fun i => (s.ils.get i).layoutBytes_length) _ _ _ hj]
  simp [allIls]

/-- The last byte of the layout bytes: the HOME filter (R198). -/
theorem State.layoutBytes_home (s : State) : s.layoutBytes[44]? = some (natByte s.home.filter) := by
  have e : 44 = ((allChans.flatMap fun c => (s.chans.get c).layoutBytes)
      ++ allIls.flatMap fun i => (s.ils.get i).layoutBytes).length := by
    rw [List.length_append, length_flatMap_allChans, length_flatMap_allIls]
  rw [State.layoutBytes, e, List.getElem?_concat_length]

/-- A byte of a body with more after it. -/
theorem byteAt_append_of {l m : List Byte} {i : Nat} {b : Byte} (h : l[i]? = some b) : byteAt (l ++ m) i = b := by
  have hi : i < l.length := by
    by_contra hn
    rw [List.getElem?_eq_none (by omega)] at h
    cases h
  rw [byteAt, List.getD_eq_getElem?_getD, List.getElem?_append_left hi, h]
  rfl

/-- The layout bytes of the reset layout are zeros (R198). -/
theorem State.layoutBytes_reset : State.reset.layoutBytes = List.replicate 45 0 := by decide

/-- Settles O31, from the place of each byte among the layout bytes. -/
theorem layoutReadReturnsLayout : Obligations.LayoutReadReturnsLayout := by
  intro tag s hr hlock
  have hm := inModes_all (State.ready_mode hr)
  obtain ⟨t, he, ht⟩ := exec_take (k := .layoutRead) rfl hr rfl ⟨rfl, hm, rfl, hlock⟩ (c := .layoutRead tag [])
  refine ⟨t, s.layoutBytes ++ [boolByte s.ctl.layoutOk], he, ht, ?_, fun c => ⟨?_, ?_⟩, fun i => ⟨?_, ?_, ?_⟩, ?_, ?_,
    ?_⟩
  · rw [List.length_append, State.layoutBytes_length]
    rfl
  · exact byteAt_append_of (s.layoutBytes_chan c 0 (by omega))
  · exact byteAt_append_of (s.layoutBytes_chan c 1 (by omega))
  · refine byteAt_append_of ((s.layoutBytes_il i 0 (by omega)).trans ?_)
    cases h : (s.ils.get i).polarity <;> simp [Interlock.layoutBytes, Polarity.ilCode, natByte, h]
  · exact byteAt_append_of (s.layoutBytes_il i 1 (by omega))
  · refine byteAt_append_of ((s.layoutBytes_il i 2 (by omega)).trans ?_)
    cases h : (s.ils.get i).rearm <;> simp [Interlock.layoutBytes, Rearm.code, natByte, h]
  · exact byteAt_append_of s.layoutBytes_home
  · rw [byteAt, List.getD_eq_getElem?_getD, List.getElem?_append_right (by rw [State.layoutBytes_length]),
      State.layoutBytes_length]
    rfl
  · intro hchans hils hhome hok
    have e : s.layoutBytes = State.reset.layoutBytes := by
      rw [State.layoutBytes, hchans, hils, hhome]
      rfl
    rw [e, State.layoutBytes_reset, hok]
    rfl

end Sys2Proof.Machine
end

section
/-! SUPPORT. The requests that read state and change nothing, the locks, the notice mask, the counters that CLEAR
clears, and TIMEBASE. -/

namespace Sys2Proof.Machine

/-! ### Bytes and numbers -/

theorem natByte_toNat (b : Byte) : natByte b.toNat = b := BitVec.ofNat_toNat .. |>.trans (BitVec.setWidth_eq b)

theorem natByte_of_toNat {b : Byte} {n : Nat} (h : b.toNat = n) : natByte n = b := by rw [← h, natByte_toNat]

theorem lineOf_eq_some {b : Byte} {l : LineId} : lineOf b = some l ↔ b.toNat = l.val := by
  unfold lineOf
  split
  · simp [Fin.ext_iff]
  · next h =>
    have hl := l.isLt
    simp
    omega

theorem lineOf_eq_none {b : Byte} : lineOf b = none ↔ 10 ≤ b.toNat := by
  unfold lineOf
  split <;> simp <;> omega

/-- The bytes of a 2-byte field are the two bytes that it was read from (R193). -/
theorem halfBytes_append (hi lo : Byte) : halfBytes (hi ++ lo) = [lo, hi] := by
  have hlow : (hi ++ lo).extractLsb' 0 8 = lo := by
    apply BitVec.eq_of_getLsbD_eq
    intro i h
    rw [BitVec.getLsbD_extractLsb', BitVec.getLsbD_append]
    simp only [Nat.zero_add, h, if_true, decide_true, Bool.true_and]
  have hhigh : (hi ++ lo).extractLsb' 8 8 = hi := by
    apply BitVec.eq_of_getLsbD_eq
    intro i h
    have hge : ¬8 + i < 8 := by omega
    rw [BitVec.getLsbD_extractLsb', BitVec.getLsbD_append]
    simp only [h, hge, if_false, decide_true, Bool.true_and, Nat.add_sub_cancel_left]
  rw [halfBytes, hlow, hhigh]

theorem natHalf_append (hi lo : Byte) : natHalf (hi ++ lo).toNat = [lo, hi] := by
  rw [natHalf, BitVec.ofNat_toNat, BitVec.setWidth_eq, halfBytes_append]

/-! ### CONFIG_READ, TABLE_READ, QUERY_QUEUE, CHECK_RESULT -/

theorem Origin.code_eq (o : Origin) : o.code = if o = .sequence then 1 else 0 := by cases o <;> rfl

/-- The entries of a QUERY_QUEUE reply, each with its position (R36, R197). -/
theorem entriesBytes_eq (pos : Nat) (es : List Entry) :
    entriesBytes pos es = (es.zipIdx pos).flatMap fun p => Entry.bytes p.2 p.1 := by
  induction es generalizing pos with
  | nil => rfl
  | cons e es ih => rw [entriesBytes, ih, List.zipIdx_cons, List.flatMap_cons]

theorem Entry.bytes_eq (pos : Nat) (e : Entry) : e.bytes pos =
    [natByte pos, natByte (e.channel.val + 16 * e.setpoint.kind.code + 64 * (if e.origin = .sequence then 1 else 0))]
    ++ e.setpoint.valueBytes ++ e.setpoint.extraBytes ++ natHalf e.remaining := by
  rw [Entry.bytes, Origin.code_eq]

theorem Pass.code_eq (p : Pass) : p.code = if p = .static then 0 else 1 := by cases p <;> rfl

theorem Pass.natByte_code (p : Pass) : natByte p.code = if p = .static then 0 else 1 := by cases p <;> rfl

theorem CheckStep.isPulse_iff (st : CheckStep) : st.isPulse = true ↔ st = .pulsePos ∨ st = .pulseNeg := by
  cases st <;> simp [CheckStep.isPulse]

theorem CheckStep.natByte_code (st : CheckStep) : natByte st.code = match st with
    | .idle => 0
    | .aOn => 1
    | .bOn => 2
    | .pulsePos => 3
    | .pulseNeg => 4 := by
  cases st <;> rfl

theorem FailStep.code_eq (st : FailStep) : st.code = match st with
    | .step .idle => 0
    | .step .aOn => 1
    | .step .bOn => 2
    | .step .pulsePos => 3
    | .step .pulseNeg => 4
    | .skipped => 5 := by
  rcases st with st | _
  · cases st <;> rfl
  · rfl

/-- CONFIG_READ by its channel byte (R53). -/
theorem State.takeConfigRead_cases (b : Byte) (s : State) :
    (16 ≤ b.toNat → s.takeConfigRead [b] = .refuse .badArg [] s)
    ∧ ∀ c : ChanId, b.toNat = c.val → s.takeConfigRead [b] = .ok (b :: (s.chans.get c).cfg.bytes ++
        match (s.chans.get c).pendCfg with
        | some g => 1 :: g.bytes
        | none => List.replicate 19 0) s := by
  refine ⟨fun h => ?_, fun c h => ?_⟩
  · simp [State.takeConfigRead, byteAt, chanOf_eq_none.2 h]
  · have hb := natByte_of_toNat h
    have hc : chanOf (byteAt [b] 0) = some c := chanOf_eq_some.2 h
    simp only [State.takeConfigRead, hc, hb] <;> rfl

/-- TABLE_READ by its section and line bytes (R137). -/
theorem State.takeTableRead_cases (b d : Byte) (s : State) :
    (∀ l : LineId, b = 0 → d.toNat = l.val → s.takeTableRead [b, d] = .ok (StateRec.bytes l (s.seq.table.get l)) s)
    ∧ (b = 1 → s.takeTableRead [b, d] = .ok (anySectionBytes s.seq.anySlots) s)
    ∧ (1 < b.toNat ∨ b = 0 ∧ 10 ≤ d.toNat → s.takeTableRead [b, d] = .refuse .badArg [] s) := by
  refine ⟨?_, ?_, ?_⟩
  · rintro l rfl h
    have hl : lineOf (byteAt [0, d] 1) = some l := lineOf_eq_some.2 h
    rw [State.takeTableRead, hl]
    rfl
  · rintro rfl
    rfl
  · rintro (h | ⟨rfl, h⟩)
    · obtain ⟨n, hn⟩ : ∃ n, (byteAt [b, d] 0).toNat = n + 2 := ⟨b.toNat - 2, by simp only [byteAt, List.getD_cons_zero]; omega⟩
      rw [State.takeTableRead, hn] <;> rfl
    · have hl : lineOf (byteAt [0, d] 1) = none := lineOf_eq_none.2 h
      rw [State.takeTableRead, hl]
      rfl

/-- The position fields of a CHECK_RESULT reply (R167, R193; log 26). -/
theorem CheckEngine.positionBytes_eq (k : CheckEngine) : k.positionBytes = match k.params, k.position with
    | some q, some p =>
      [if p.pass = .static then 0 else 1, natByte (visitChannel q.order p.place).val,
        match p.step with
        | .idle => 0
        | .aOn => 1
        | .bOn => 2
        | .pulsePos => 3
        | .pulseNeg => 4,
        natByte p.frames, if p.step = .pulsePos ∨ p.step = .pulseNeg then natByte k.edges else 0]
      ++ natHalf k.frameIndex
    | _, _ => List.replicate 7 0 := by
  unfold CheckEngine.positionBytes
  cases k.params with
  | none => rfl
  | some q =>
    cases k.position with
    | none => rfl
    | some p => simp only [Pass.natByte_code, CheckStep.natByte_code, CheckStep.isPulse_iff]

theorem Failure.bytes_eq (f : Failure) : f.bytes =
    [natByte (f.channel.val
      + 16 * (match f.step with
        | .step .idle => 0
        | .step .aOn => 1
        | .step .bOn => 2
        | .step .pulsePos => 3
        | .step .pulseNeg => 4
        | .skipped => 5)
      + 128 * (if f.pass = .static then 0 else 1)),
      natByte f.expected, natByte f.observed] ++ natHalf f.index := by
  rw [Failure.bytes, FailStep.code_eq, Pass.code_eq]

/-- Settles O32, request by request. -/
theorem readingRequestsChangeNothing : Obligations.ReadingRequestsChangeNothing := by
  intro tag b d s hr
  have hm := inModes_all (State.ready_mode hr)
  refine ⟨fun hlock => ?_, fun hlock => ?_, ?_, ?_⟩
  · obtain ⟨t, he, ht⟩ := exec_take (k := .configRead) rfl hr rfl ⟨rfl, hm, rfl, hlock⟩ (c := .configRead tag [b])
    obtain ⟨hbad, hok⟩ := State.takeConfigRead_cases b s
    exact ⟨t, he, fun h => ht.of_answer (hbad h), fun c h => ht.of_answer (hok c h)⟩
  · obtain ⟨t, he, ht⟩ := exec_take (k := .tableRead) rfl hr rfl ⟨rfl, hm, rfl, hlock⟩ (c := .tableRead tag [b, d])
    obtain ⟨hline, hany, hbad⟩ := State.takeTableRead_cases b d s
    exact ⟨t, he, fun l h hl => ht.of_answer (hline l h hl), fun h => ht.of_answer (hany h),
      fun h => ht.of_answer (hbad h)⟩
  · obtain ⟨t, he, ht⟩ := exec_take (k := .queryQueue) rfl hr rfl ⟨rfl, hm, rfl, rfl⟩ (c := .queryQueue tag [b])
    refine ⟨t, he, fun h => ht.of_answer ?_, fun shown h hshown => ht.of_answer ?_⟩
    · exact if_pos h
    · have hb : ¬31 < (byteAt [b] 0).toNat := by simpa [byteAt] using h
      show s.takeQueryQueue [b] = _
      rw [State.takeQueryQueue, if_neg hb]
      simp only [entriesBytes_eq, Entry.bytes_eq, hshown] <;> rfl
  · obtain ⟨t, he, ht⟩ := exec_take (k := .checkResult) rfl hr rfl ⟨rfl, hm, rfl, rfl⟩ (c := .checkResult tag [])
    refine ⟨t, he, ht.of_answer ?_⟩
    have hlog : Failure.bytes = _ := funext Failure.bytes_eq
    show s.takeCheckResult [] = _
    rw [State.takeCheckResult, CheckEngine.resultBytes, CheckEngine.positionBytes_eq, hlog]
    rfl

/-! ### LOCK, NOTICES and the counters -/

/-- A notice mask names a kind that cannot be masked (R190, R195). -/
theorem unmaskable_iff (m : Half) : m &&& ~~~Config.maskableKinds ≠ 0
    ↔ ∃ k : Fin 16, (k.val = 0 ∨ 9 ≤ k.val) ∧ m.getLsbD k.val = true := by
  have hbit : ∀ k : Fin 16, (~~~Config.maskableKinds).getLsbD k.val = true ↔ k.val = 0 ∨ 9 ≤ k.val := by decide
  constructor
  · intro h
    by_contra hn
    refine h (BitVec.eq_of_getLsbD_eq fun i hi => ?_)
    rw [BitVec.getLsbD_and]
    by_contra hb
    have hb' : m.getLsbD i = true ∧ (~~~Config.maskableKinds).getLsbD i = true := by simpa using hb
    exact hn ⟨⟨i, hi⟩, (hbit ⟨i, hi⟩).1 hb'.2, hb'.1⟩
  · rintro ⟨k, hk, hmk⟩ h
    have : (m &&& ~~~Config.maskableKinds).getLsbD k.val = true := by
      rw [BitVec.getLsbD_and, hmk, (hbit k).2 hk]
      rfl
    rw [h] at this
    simp at this

/-- Settles O39, request by request. -/
theorem locksNoticesAndClears : Obligations.LocksNoticesAndClears := by
  constructor
  · intro tag b lo hi s hr hmode hlock
    have hm := inModes_setup_run hmode
    constructor
    · obtain ⟨t, he, ht⟩ := exec_take (k := .lock) rfl hr rfl ⟨rfl, hm, rfl, hlock⟩ (c := .lock tag [b])
      refine ⟨t, he, fun h => ht.of_answer (if_pos h), ?_⟩
      rintro r w a h rfl rfl rfl
      exact ht.of_answer (if_neg (Nat.not_lt.2 (Nat.le_of_lt_succ h)))
    · obtain ⟨t, he, ht⟩ := exec_take (k := .notices) rfl hr rfl ⟨rfl, hm, rfl, hlock⟩ (c := .notices tag [lo, hi])
      refine ⟨t, he, fun h => ht.of_answer (if_pos ((unmaskable_iff _).2 h)), fun h => ht.of_answer ?_⟩
      refine (if_neg (fun g => h ((unmaskable_iff _).1 g))).trans ?_
      show Answer.ok (halfBytes (hi ++ lo)) _ = _
      rw [halfBytes_append]
      rfl
  · intro tag lo hi s hr hmode
    have hm := inModes_setup_run hmode
    constructor
    · obtain ⟨t, he, ht⟩ := exec_take (k := .clear) rfl hr rfl ⟨rfl, hm, rfl, rfl⟩ (c := .clearAccum tag [lo, hi])
      refine ⟨t, he, ht.of_answer ?_⟩
      show Answer.ok (halfBytes (hi ++ lo)) _ = _
      rw [halfBytes_append]
      rfl
    · exact exec_take (k := .clear) rfl hr rfl ⟨rfl, hm, rfl, rfl⟩ (c := .clearCounters tag [lo, hi])

/-- Settles O44. -/
theorem clearOvercaptureKeepsCaptures : Obligations.ClearOvercaptureKeepsCaptures := by
  intro tag lo hi s cleared hr hcleared
  refine ⟨?_, fun x r h => by simp [Sense.capturing, h]⟩
  obtain ⟨t, he, ht⟩ := exec_taken (.clearOvercapture tag [lo, hi]) _ s rfl hr
  have hmask : cleared = (hi ++ lo : Half) &&& chanMask fun c => (s.senses.get c).overcaptured :=
    hcleared.eq fun c => by rw [BitVec.getLsbD_and, chanMask_getLsbD, Bool.and_eq_true]
  refine ⟨t, he, fun h => ?_, fun h => ?_⟩
  · obtain ⟨t', he', ht'⟩ := exec_refusedState (k := .clear) rfl hr rfl rfl (c := .clearOvercapture tag [lo, hi])
      (show ReqKind.modeOk .clear s.ctl.mode = false by rw [h]; rfl)
    cases he.symm.trans he'
    exact ht'
  · rw [State.judge_take s _ .clear rfl ⟨rfl, inModes_setup_run h, rfl, rfl⟩] at ht
    rw [hmask]
    exact ht

/-! ### TIMEBASE -/

/-- A bound lies below four times the largest dead-time exactly where it lies below four times some channel's
(R9). -/
theorem State.lt_largestDead_iff (s : State) (x : Nat) : x < 4 * s.largestDead
    ↔ ∃ c : ChanId, ((s.chans.get c).mode = .complement ∨ (s.chans.get c).mode = .directional)
      ∧ x < 4 * (s.chans.get c).deadTime := by
  have hfold : ∀ (l : List Channel) (d : Nat),
      x < 4 * l.foldl (fun d ch => if ch.mode.hasDeadTime then max d ch.deadTime else d) d
      ↔ x < 4 * d ∨ ∃ ch ∈ l, ch.mode.hasDeadTime = true ∧ x < 4 * ch.deadTime := by
    intro l
    induction l with
    | nil => simp
    | cons ch l ih =>
      intro d
      rw [List.foldl_cons, ih]
      simp only [List.mem_cons, exists_eq_or_imp]
      cases ch.mode.hasDeadTime
      · simp
      · have : x < 4 * max d ch.deadTime ↔ x < 4 * d ∨ x < 4 * ch.deadTime := by omega
        simp [this, or_assoc]
  have hdead : ∀ m : ChanMode, m.hasDeadTime = true ↔ m = .complement ∨ m = .directional := by
    intro m
    cases m <;> simp [ChanMode.hasDeadTime]
  rw [State.largestDead, hfold]
  simp only [Nat.mul_zero, Nat.not_lt_zero, false_or, Bank.mem_data, hdead]
  exact ⟨fun ⟨_, ⟨c, hc⟩, h⟩ => ⟨c, hc ▸ h⟩, fun ⟨c, h⟩ => ⟨_, ⟨c, rfl⟩, h⟩⟩

theorem Align.ofCode_eq_none {n : Nat} (h : 1 < n) : Align.ofCode n = none := by
  obtain ⟨k, rfl⟩ : ∃ k, n = k + 2 := ⟨n - 2, by omega⟩
  rfl

theorem Align.ofCode_eq_some {n : Nat} (h : n ≤ 1) : Align.ofCode n = some (if n = 0 then .edge else .centred) := by
  obtain rfl | rfl : n = 0 ∨ n = 1 := by omega
  · rfl
  · rfl

theorem Align.eq_iff_code {n : Nat} (h : n ≤ 1) (a : Align) : (if n = 0 then Align.edge else .centred) = a ↔ n = a.code := by
  obtain rfl | rfl : n = 0 ∨ n = 1 := by omega
  all_goals cases a <;> simp [Align.code]

/-- The first check of R9 that fails refuses the settings by its name. -/
theorem State.checkTimebase_of_fails {s : State} {body : List Byte} {n : Nat} (h : timebaseFails s body n)
    (hfirst : ∀ m < n, ¬timebaseFails s body m) :
    s.checkTimebase body = .error (if n ≤ 3 then n else n - 1) := by
  have hn : n ≤ 5 := by
    by_contra hc
    obtain ⟨k, rfl⟩ : ∃ k, n = k + 6 := ⟨n - 6, by omega⟩
    exact h
  have h1 : 1 < n → ¬(halfAt body 1).toNat < 16 := hfirst 1
  have h2 : 2 < n → ¬127 < (byteAt body 3).toNat := hfirst 2
  have h3 : 3 < n → (byteAt body 4).toNat ≤ 1 := fun hlt => Nat.not_lt.1 (hfirst 3 hlt)
  have h4 : 4 < n → ¬(s.ctl.mode = .run ∧ (byteAt body 4).toNat ≠ s.tb.active.align.code) := hfirst 4
  unfold State.checkTimebase
  dsimp only
  match n, hn with
  | 0, _ => exact h.elim
  | 1, _ => rw [if_pos (show (halfAt body 1).toNat < 16 from h)]; rfl
  | 2, _ => rw [if_neg (h1 (by omega)), if_pos (show 127 < (byteAt body 3).toNat from h)]; rfl
  | 3, _ => rw [if_neg (h1 (by omega)), if_neg (h2 (by omega)), Align.ofCode_eq_none h]; rfl
  | 4, _ =>
    have hle := h3 (by omega)
    obtain ⟨hm, hc⟩ : s.ctl.mode = .run ∧ (byteAt body 4).toNat ≠ s.tb.active.align.code := h
    rw [if_neg (h1 (by omega)), if_neg (h2 (by omega)), Align.ofCode_eq_some hle]
    dsimp only
    rw [if_pos ⟨hm, fun e => hc ((Align.eq_iff_code hle _).1 e)⟩]
    rfl
  | 5, _ =>
    have hle := h3 (by omega)
    rw [if_neg (h1 (by omega)), if_neg (h2 (by omega)), Align.ofCode_eq_some hle]
    dsimp only
    rw [if_neg fun e => h4 (by omega) ⟨e.1, fun g => e.2 ((Align.eq_iff_code hle _).2 g)⟩,
      if_pos ((s.lt_largestDead_iff _).2 h)]
    rfl

/-- Settings that pass every check of R9 are those of the body. -/
theorem State.checkTimebase_of_sound {s : State} {body : List Byte} (h : ∀ n, ¬timebaseFails s body n) :
    (byteAt body 4).toNat ≤ 1 ∧ s.checkTimebase body = .ok
      { prescale := (byteAt body 0).toNat, period := (halfAt body 1).toNat, rep := (byteAt body 3).toNat
        align := if (byteAt body 4).toNat = 0 then .edge else .centred } := by
  have h1 : ¬(halfAt body 1).toNat < 16 := h 1
  have h2 : ¬127 < (byteAt body 3).toNat := h 2
  have hle : (byteAt body 4).toNat ≤ 1 := Nat.not_lt.1 (h 3)
  have h4 : ¬(s.ctl.mode = .run ∧ (byteAt body 4).toNat ≠ s.tb.active.align.code) := h 4
  refine ⟨hle, ?_⟩
  unfold State.checkTimebase
  dsimp only
  rw [if_neg h1, if_neg h2, Align.ofCode_eq_some hle]
  dsimp only
  rw [if_neg fun e => h4 ⟨e.1, fun g => e.2 ((Align.eq_iff_code hle _).2 g)⟩,
    if_neg fun e => h 5 ((s.lt_largestDead_iff _).1 e)]

/-- The bytes of settings read from a body are that body (R195). -/
theorem TbSettings.bytes_of_body {p lo hi r a : Byte} (ha : a.toNat ≤ 1) :
    TbSettings.bytes { prescale := p.toNat, period := (hi ++ lo).toNat, rep := r.toNat
                       align := if a = 0 then .edge else .centred } = [p, lo, hi, r, a] := by
  have halign : natByte (if a = 0 then Align.edge else Align.centred).code = a := by
    split
    · next h => rw [h]; rfl
    · next h =>
      refine natByte_of_toNat (?_ : a.toNat = 1)
      have : a.toNat ≠ 0 := fun g => h (BitVec.eq_of_toNat_eq g)
      omega
  rw [TbSettings.bytes, natHalf_append, natByte_toNat, natByte_toNat, halign]
  rfl

/-- Settles O35. -/
theorem timebaseIsSetOrStaged : Obligations.TimebaseIsSetOrStaged := by
  rintro tag p lo hi r a s body rfl hr hlock hmode
  have hpass : ReqKind.Passes .timebase [p, lo, hi, r, a] s.ctl := by
    refine ⟨rfl, inModes_setup_run (hmode.imp_left And.left), ?_, hlock⟩
    rcases hmode with ⟨_, h⟩ | h <;> simp [ReqKind.orderOk, h]
  obtain ⟨t, he, ht⟩ := exec_take (k := .timebase) rfl hr rfl hpass (c := .timebase tag [p, lo, hi, r, a])
  refine ⟨fun n hf hfirst => ⟨t, he, ht.of_answer ?_⟩, ?_⟩
  · show State.takeTimebase _ _ = _
    rw [State.takeTimebase, State.checkTimebase_of_fails hf hfirst]
    rfl
  · rintro g rfl hsound
    obtain ⟨hle, hok⟩ := State.checkTimebase_of_sound hsound
    have halign : (if (byteAt [p, lo, hi, r, a] 4).toNat = 0 then Align.edge else .centred)
        = if a = 0 then .edge else .centred := by
      have : (byteAt [p, lo, hi, r, a] 4).toNat = 0 ↔ a = 0 := (BitVec.toNat_eq (x := a) (y := 0)).symm
      simp only [this]
    rw [halign] at hok
    have hbytes := TbSettings.bytes_of_body (p := p) (lo := lo) (hi := hi) (r := r) hle
    refine ⟨t, he, fun hm => ht.of_answer ?_, fun hm => ht.of_answer ?_⟩
    · show State.takeTimebase _ _ = _
      rw [State.takeTimebase, hok]
      dsimp only
      rw [if_neg (by rw [hm]; exact OpMode.noConfusion)]
      exact congrArg₂ (fun x y => Answer.ok (x ++ y) _) hbytes hbytes
    · show State.takeTimebase _ _ = _
      rw [State.takeTimebase, hok]
      dsimp only
      rw [if_pos hm]
      exact congrArg (fun y => Answer.ok (s.tb.active.bytes ++ y) _) hbytes

end Sys2Proof.Machine
end

section
/-! SUPPORT. Pending notices by their kind, through offers and reorderings; then the stages of a boundary, and what a
boundary does to the Timebase and leaves of the other units. -/

namespace Sys2Proof.Machine

/-! ### Pending notices of one kind -/

theorem Notice.absorb_kind {n : Notice} {o : Occurrence} (h : n.occ.kind = o.kind) : (n.absorb o).occ.kind = o.kind :=
  (Occurrence.merge_kind _ _ h).trans h

/-- The notices of the kind of an occurrence after it is offered (R188). -/
theorem Link.offer_ofKind (l : Link) (o : Occurrence) (h : o.kind ≠ 0) : (l.offer o).ofKind o.kind =
    if l.mask.getLsbD o.kind = true then
      if l.ofKind o.kind = [] then [{ occ := o, count := 1 }] else (l.ofKind o.kind).map fun n => n.absorb o
    else l.ofKind o.kind := by
  unfold Link.offer Link.admitsKind
  rw [if_neg h]
  split
  · have hany : (l.notices.any fun n => decide (n.occ.kind = o.kind)) = true ↔ l.ofKind o.kind ≠ [] := by
      simp [Link.ofKind]
    by_cases he : l.ofKind o.kind = []
    · rw [if_pos he, if_neg fun g => hany.1 g he]
      show (l.notices ++ [_]).filter _ = _
      rw [List.filter_append]
      show l.ofKind o.kind ++ _ = _
      rw [he]
      simp
    · rw [if_neg he, if_pos (hany.2 he)]
      show (l.notices.map _).filter _ = (l.notices.filter _).map _
      rw [List.filter_map]
      have hp : ((fun n : Notice => decide (n.occ.kind = o.kind)) ∘ fun n => if n.occ.kind = o.kind then n.absorb o else n)
          = fun n => decide (n.occ.kind = o.kind) := by
        funext n
        by_cases hn : n.occ.kind = o.kind
        · simp [hn, Notice.absorb_kind hn]
        · simp [hn]
      rw [hp]
      refine List.map_congr_left fun n hn => ?_
      rw [if_pos (by simpa using (List.mem_filter.1 hn).2)]
  · rfl

/-- An offer leaves the notices of the other kinds (R188). -/
theorem Link.offer_ofKind_of_ne (l : Link) {o : Occurrence} {k : Nat} (h : o.kind ≠ k) :
    (l.offer o).ofKind k = l.ofKind k := by
  rcases Link.offer_cases l o with e | e | e <;> rw [e]
  · show (l.notices ++ [_]).filter _ = _
    rw [List.filter_append]
    simp [h, Link.ofKind]
  · show (l.notices.map _).filter _ = l.notices.filter _
    rw [List.filter_map]
    have hp : ((fun n : Notice => decide (n.occ.kind = k)) ∘ fun n => if n.occ.kind = o.kind then n.absorb o else n)
        = fun n => decide (n.occ.kind = k) := by
      funext n
      by_cases hn : n.occ.kind = o.kind
      · simp [hn, Notice.absorb_kind hn]
      · simp [hn]
    rw [hp]
    refine (List.map_congr_left fun n hn => ?_).trans (List.map_id _)
    have hk : n.occ.kind = k := by simpa using (List.mem_filter.1 hn).2
    rw [if_neg fun g => h (g.symm.trans hk)]
    rfl

/-- Two Link Units with one mask and the same notices of some kinds. -/
structure SameKinds (ks : List Nat) (l m : Link) : Prop where
  mask : l.mask = m.mask
  kinds : ∀ k ∈ ks, l.ofKind k = m.ofKind k

/-- The Link Unit `m` is `l` after offers of some kinds alone, as far as the other kinds show. -/
structure OffersOnly (ks : List Nat) (l m : Link) : Prop where
  rest : m = { l with notices := m.notices }
  kinds : ∀ k, k ∉ ks → m.ofKind k = l.ofKind k

theorem Link.offer_mask (l : Link) (o : Occurrence) : (l.offer o).mask = l.mask := by rw [Link.offer_eq]

theorem SameKinds.offer {ks : List Nat} {l m : Link} (h : SameKinds ks l m) {o : Occurrence} (ho : o.kind ≠ 0) :
    SameKinds ks (l.offer o) (m.offer o) where
  mask := by rw [Link.offer_mask, Link.offer_mask, h.mask]
  kinds k hk := by
    by_cases e : o.kind = k
    · subst e
      rw [Link.offer_ofKind _ _ ho, Link.offer_ofKind _ _ ho, h.mask, h.kinds _ hk]
    · rw [Link.offer_ofKind_of_ne _ e, Link.offer_ofKind_of_ne _ e, h.kinds _ hk]

theorem OffersOnly.refl {ks : List Nat} (l : Link) : OffersOnly ks l l where
  rest := rfl
  kinds _ _ := rfl

theorem OffersOnly.trans {ks : List Nat} {l m n : Link} (h : OffersOnly ks l m) (g : OffersOnly ks m n) :
    OffersOnly ks l n where
  rest := by rw [g.rest, h.rest]
  kinds k hk := (g.kinds k hk).trans (h.kinds k hk)

theorem OffersOnly.mono {ks js : List Nat} {l m : Link} (h : OffersOnly ks l m) (hs : ks ⊆ js) : OffersOnly js l m where
  rest := h.rest
  kinds k hk := h.kinds k fun g => hk (hs g)

theorem OffersOnly.offer {ks : List Nat} {l m : Link} (h : OffersOnly ks l m) {o : Occurrence} (ho : o.kind ∈ ks) :
    OffersOnly ks l (m.offer o) :=
  h.trans
    { rest := Link.offer_eq m o
      kinds := fun _ hk => Link.offer_ofKind_of_ne m fun e => hk (e ▸ ho) }

theorem OffersOnly.mask {ks : List Nat} {l m : Link} (h : OffersOnly ks l m) : m.mask = l.mask := by rw [h.rest]

theorem OffersOnly.flow {l m : Link} (h : FlowOffered l m) : OffersOnly [2] l m := by
  rcases h with rfl | ⟨hold, rfl⟩
  · exact .refl _
  · exact (OffersOnly.refl l).offer (by simp [Occurrence.kind])

/-- The reordering of new notices keeps each unit's own order (R188). -/
theorem orderNew_unit (fuel : Nat) (l : List Notice) (s : State) (u : Nat) :
    (orderNew fuel l s).1.filter (fun n => decide (unitOfKind n.occ.kind = u))
      = l.filter fun n => decide (unitOfKind n.occ.kind = u) := by
  induction fuel generalizing l s with
  | zero => rfl
  | succ fuel ih =>
    unfold orderNew
    dsimp only
    generalize hi : (nextPlaces l).getD (s.pick (nextPlaces l).length).1 0 = i
    split
    · rfl
    next n hn =>
    have hfirst : ∀ m ∈ l.take i, unitOfKind m.occ.kind ≠ unitOfKind n.occ.kind := by
      rw [List.getD_eq_getElem?_getD] at hi
      cases hp : (nextPlaces l)[(s.pick (nextPlaces l).length).1]? with
      | none =>
        rw [hp] at hi
        subst hi
        simp
      | some j =>
        rw [hp] at hi
        obtain rfl : j = i := hi
        have hmem := List.mem_of_getElem? hp
        rw [nextPlaces, List.mem_filter, hn] at hmem
        simpa using hmem.2
    have hlt : i < l.length := (List.getElem?_eq_some_iff.1 hn).1
    have hsplit : l = l.take i ++ n :: l.drop (i + 1) := by
      obtain ⟨_, rfl⟩ := List.getElem?_eq_some_iff.1 hn
      rw [← List.drop_eq_getElem_cons hlt, List.take_append_drop]
    show (n :: (orderNew fuel (l.eraseIdx i) _).1).filter _ = _
    rw [List.filter_cons, ih, List.eraseIdx_eq_take_drop_succ]
    conv_rhs => rw [hsplit]
    rw [List.filter_append, List.filter_append, List.filter_cons]
    by_cases hu : unitOfKind n.occ.kind = u
    · have hnil : (l.take i).filter (fun m => decide (unitOfKind m.occ.kind = u)) = [] := by
        rw [List.filter_eq_nil_iff]
        intro m hm
        simpa [← hu] using hfirst m hm
      simp [hu, hnil]
    · simp [hu]

/-- The reordering of new notices keeps the order of each kind (R188). -/
theorem orderNew_kind (fuel : Nat) (l : List Notice) (s : State) (k : Nat) :
    (orderNew fuel l s).1.filter (fun n => decide (n.occ.kind = k)) = l.filter fun n => decide (n.occ.kind = k) := by
  have hsub : ∀ m : List Notice, m.filter (fun n => decide (n.occ.kind = k))
      = (m.filter fun n => decide (unitOfKind n.occ.kind = unitOfKind k)).filter fun n => decide (n.occ.kind = k) := by
    intro m
    rw [List.filter_filter]
    refine List.filter_congr fun n _ => ?_
    by_cases h : n.occ.kind = k <;> simp [h]
  rw [hsub, orderNew_unit, ← hsub]

theorem State.settleOrder_link (old : Nat) (s : State) : (s.settleOrder old).link = { s.link with
    notices := s.link.notices.take old
      ++ (orderNew (s.link.notices.drop old).length (s.link.notices.drop old) s).1 } := by
  unfold State.settleOrder
  dsimp only
  rw [orderNew_state]

theorem State.settleOrder_offers (old : Nat) (s : State) : OffersOnly [] s.link (s.settleOrder old).link where
  rest := by rw [State.settleOrder_link]
  kinds k _ := by
    rw [State.settleOrder_link]
    show (s.link.notices.take old ++ (orderNew _ (s.link.notices.drop old) s).1).filter _ = s.link.notices.filter _
    rw [List.filter_append, orderNew_kind, ← List.filter_append, List.take_append_drop]

/-! ### The stages of a boundary -/

/-- A boundary's work up to its evaluation: Timebase, countdown, additions, channels, AUTO rearm (log 23). -/
def State.beforeEvaluation (forced quiet : Bool) (s : State) : State :=
  let release := s.tb.releases forced
  let s1 := s.resumeOuts.timebaseWork forced quiet
  let s2 := if release then s1.countdown else s1
  let s4 := State.channelWork s release (State.accumulate s s2)
  if release then s4.autoTest else s4

/-- A boundary's work up to its outputs. -/
def State.evaluated (forced quiet : Bool) (s : State) : State :=
  (s.beforeEvaluation forced quiet).sequenceWork (s.tb.releases forced)

theorem State.runBoundary_eq (forced quiet : Bool) (s : State) :
    State.runBoundary forced quiet s = (s.evaluated forced quiet).outputWork.settleOrder s.link.notices.length := rfl

theorem Timebase.releases_iff (t : Timebase) (forced : Bool) : t.releases forced = true ↔ forced = true ∨ t.rep = 0 := by
  simp [Timebase.releases]

/-- The fields that a boundary leaves as they were. -/
theorem State.beforeEvaluation_kept (forced quiet : Bool) (s : State) :
    let b := s.beforeEvaluation forced quiet
    b.pending = s.pending ∧ b.senses = s.senses ∧ b.sampler = s.sampler ∧ b.ils = s.ils ∧ b.home = s.home
      ∧ b.check = s.check ∧ b.ctl = s.ctl ∧ b.pins = s.pins := by
  unfold State.beforeEvaluation
  cases s.tb.releases forced <;> simp

theorem State.beforeEvaluation_tb (forced quiet : Bool) (s : State) :
    (s.beforeEvaluation forced quiet).tb = s.tb.boundary forced := by
  have h : (s.resumeOuts.timebaseWork forced quiet).tb = s.tb.boundary forced := by simp [State.timebaseWork]
  unfold State.beforeEvaluation
  cases s.tb.releases forced <;> simp [h]

/-- The entries that a countdown leaves, each lowered by 1 (R26). -/
def PostingQueue.counted (q : PostingQueue) : List Entry :=
  (q.entries.filter fun e => decide (e.remaining ≠ 0)).map fun e => { e with remaining := e.remaining - 1 }

theorem State.beforeEvaluation_queue (forced quiet : Bool) (s : State) : (s.beforeEvaluation forced quiet).queue =
    if s.tb.releases forced = true then afterRemoval s.queue s.queue.counted else s.queue := by
  unfold State.beforeEvaluation
  cases s.tb.releases forced <;> simp [State.countdown_eq, PostingQueue.counted]

/-- The channels of a boundary after the countdown, the additions, adoption and the released entries (log 23). -/
def State.afterRelease (forced quiet : Bool) (s : State) : State :=
  if s.tb.releases forced then
    (State.accumulate s (s.resumeOuts.timebaseWork forced quiet).countdown).adoptConfigs.applyReleased s.dueEntries
  else State.accumulate s (s.resumeOuts.timebaseWork forced quiet)

/-- A boundary after the ramp steps and their events (R61, R62, R143). -/
def State.afterRamps (forced quiet : Bool) (s : State) : State :=
  let r := s.afterRelease forced quiet
  { State.rampSteps s r with seq := r.seq.hold (State.rampsDone s r) 0 }

/-- After the ramp steps comes AUTO rearm at a release boundary. -/
theorem State.beforeEvaluation_eq (forced quiet : Bool) (s : State) : s.beforeEvaluation forced quiet =
    if s.tb.releases forced then (s.afterRamps forced quiet).autoTest else s.afterRamps forced quiet := by
  unfold State.beforeEvaluation State.afterRamps State.afterRelease State.channelWork
  cases s.tb.releases forced <;> rfl

theorem State.accumulate_seq (b s : State) :
    (State.accumulate b s).seq = s.seq.hold 0 (chanMask b.accCrosses) := by
  unfold State.accumulate
  rw [State.foldl_offerAddition]

theorem State.afterRelease_seq (forced quiet : Bool) (s : State) :
    (s.afterRelease forced quiet).seq = s.seq.hold 0 (chanMask s.accCrosses) := by
  unfold State.afterRelease
  cases s.tb.releases forced <;> simp [State.accumulate_seq]

theorem State.beforeEvaluation_seq (forced quiet : Bool) (s : State) : (s.beforeEvaluation forced quiet).seq =
    (s.seq.hold 0 (chanMask s.accCrosses)).hold (State.rampsDone s (s.afterRelease forced quiet)) 0 := by
  rw [State.beforeEvaluation_eq, ← State.afterRelease_seq forced quiet]
  split
  · rw [State.autoTest_seq]
    rfl
  · rfl

theorem SeqUnit.hold_eq (u : SeqUnit) (r a : Half) : u.hold r a = { u with held := (u.hold r a).held } := by
  unfold SeqUnit.hold
  split <;> rfl

/-- A boundary's work up to its evaluation changes the held events of the Sequence Unit alone (R143). -/
theorem State.beforeEvaluation_seq_held (forced quiet : Bool) (s : State) : (s.beforeEvaluation forced quiet).seq =
    { s.seq with held := (s.beforeEvaluation forced quiet).seq.held } := by
  rw [State.beforeEvaluation_seq, SeqUnit.hold_eq, SeqUnit.hold_eq]

/-! ### The notices of a boundary -/

theorem State.offerIf_offers {ks : List Nat} (b : Bool) {o : Occurrence} (s : State) (ho : o.kind ∈ ks) :
    OffersOnly ks s.link (State.offerIf b o s).link := by
  unfold State.offerIf
  split
  · exact (OffersOnly.refl _).offer ho
  · exact .refl _

theorem State.timebaseWork_offers (forced quiet : Bool) (s : State) :
    OffersOnly [8] s.link (s.timebaseWork forced quiet).link :=
  State.offerIf_offers _ { s with tb := s.tb.boundary forced } (by simp [Occurrence.kind])

theorem State.offerAddition_offers (b s : State) (c : ChanId) : OffersOnly [4, 5] s.link (b.offerAddition s c).link :=
  (State.offerIf_offers _ s (by simp [Occurrence.kind])).trans (State.offerIf_offers _ _ (by simp [Occurrence.kind]))

theorem State.foldl_offerAddition_offers (b : State) (cs : List ChanId) (s : State) :
    OffersOnly [4, 5] s.link (cs.foldl b.offerAddition s).link := by
  induction cs generalizing s with
  | nil => exact .refl _
  | cons c cs ih => exact (State.offerAddition_offers b s c).trans (ih _)

theorem State.accumulate_offers (b s : State) : OffersOnly [4, 5] s.link (State.accumulate b s).link :=
  State.foldl_offerAddition_offers b allChans
    { s with accs := s.accs.mapId b.addition, seq := s.seq.hold 0 (chanMask b.accCrosses) }

theorem State.beforeEvaluation_offers (forced quiet : Bool) (s : State) :
    OffersOnly [2, 4, 5, 8] s.link (s.beforeEvaluation forced quiet).link := by
  have h1 : OffersOnly [2, 4, 5, 8] s.link (s.resumeOuts.timebaseWork forced quiet).link :=
    (State.timebaseWork_offers forced quiet s.resumeOuts).mono (by simp)
  have h2 := fun t => (OffersOnly.flow (State.countdown_flow t)).mono (js := [2, 4, 5, 8]) (by simp)
  have h3 := fun t => (State.accumulate_offers s t).mono (js := [2, 4, 5, 8]) (by simp)
  unfold State.beforeEvaluation
  cases s.tb.releases forced
  · simpa [State.channelWork] using h1.trans (h3 _)
  · simpa [State.channelWork] using (h1.trans (h2 _)).trans (h3 _)

theorem State.dropPosting_offers (l : LineId) (s : State) : OffersOnly [2, 6] s.link (s.dropPosting l).link :=
  (OffersOnly.refl s.link).offer (o := .seqDrop l (min (s.seq.drops + 1) 255)) (by simp [Occurrence.kind])

theorem State.placePosting_offers (l : LineId) (r : PostRec) (s : State) :
    OffersOnly [2, 6] s.link (s.placePosting l r).2.link := by
  unfold State.placePosting
  repeat' split
  · exact s.dropPosting_offers l
  · exact s.dropPosting_offers l
  · exact (OffersOnly.flow (State.insert_flow _ _ s)).mono (by simp)
  · exact s.dropPosting_offers l

theorem State.placePostings_offers (l : LineId) (rs : List PostRec) (s : State) :
    OffersOnly [2, 6] s.link (s.placePostings l rs).2.link := by
  induction rs generalizing s with
  | nil => exact .refl _
  | cons r rs ih => exact (s.placePosting_offers l r).trans (ih _)

theorem State.enterLine_offers (l : LineId) (cause : EntryCause) (s : State) :
    OffersOnly [2, 3, 6] s.link (s.enterLine l cause).2.link := by
  have h := (State.placePostings_offers l (s.seq.table.get l).entryPostings { s with seq := s.seq.enter l cause }).mono
    (js := [2, 3, 6]) (by simp)
  exact h.offer (o := .transition s.seq.current l cause s.tb.bnum) (by simp [Occurrence.kind])

theorem State.evaluate_offers (s : State) : OffersOnly [2, 3, 6] s.link s.evaluate.link := by
  unfold State.evaluate
  split
  · dsimp only
    split
    · exact .refl _
    · split
      · exact State.enterLine_offers ..
      · exact .refl _
  · exact .refl _

theorem State.sequenceWork_offers (release : Bool) (s : State) :
    OffersOnly [2, 3, 6] s.link (s.sequenceWork release).link := by
  cases release
  · exact State.evaluate_offers s
  · exact State.evaluate_offers { s with seq := s.seq.countDwell }

/-- The notices of one kind after a boundary are those after its evaluation (R188). -/
theorem State.runBoundary_link (forced quiet : Bool) (s : State) :
    OffersOnly [] (s.evaluated forced quiet).link (State.runBoundary forced quiet s).link := by
  have h := State.settleOrder_offers s.link.notices.length (s.evaluated forced quiet).outputWork
  rwa [State.outputWork_link] at h

/-- A boundary offers kinds 2 to 6 and 8 alone. -/
theorem State.runBoundary_offers (forced quiet : Bool) (s : State) :
    OffersOnly [2, 3, 4, 5, 6, 8] s.link (State.runBoundary forced quiet s).link :=
  (((State.beforeEvaluation_offers forced quiet s).mono (by simp)).trans
    ((State.sequenceWork_offers _ _).mono (by simp))).trans ((State.runBoundary_link forced quiet s).mono (by simp))

/-- The notices of BOUNDARY after a boundary are those that its Timebase work left. -/
theorem State.runBoundary_boundaries (forced quiet : Bool) (s : State) :
    (State.runBoundary forced quiet s).link.ofKind 8 = (s.timebaseWork forced quiet).link.ofKind 8 := by
  have h2 := fun t => (OffersOnly.flow (State.countdown_flow t)).kinds 8 (by simp)
  have h3 := fun t => (State.accumulate_offers s t).kinds 8 (by simp)
  have hb : (s.beforeEvaluation forced quiet).link.ofKind 8 = (s.timebaseWork forced quiet).link.ofKind 8 := by
    have hr : (s.resumeOuts.timebaseWork forced quiet).link = (s.timebaseWork forced quiet).link := by
      unfold State.timebaseWork State.offerIf
      split <;> split <;> simp_all <;> rfl
    unfold State.beforeEvaluation
    cases s.tb.releases forced
    · simp [State.channelWork, h3, hr]
    · simp [State.channelWork, h3, h2, hr]
  calc _ = (s.evaluated forced quiet).link.ofKind 8 := (State.runBoundary_link forced quiet s).kinds 8 (by simp)
    _ = (s.beforeEvaluation forced quiet).link.ofKind 8 := (State.sequenceWork_offers _ _).kinds 8 (by simp)
    _ = _ := hb

end Sys2Proof.Machine
end

section
/-! SUPPORT. What a boundary does to the Timebase and leaves of the other units; WITHDRAW and FORCE_BOUNDARY. -/

namespace Sys2Proof.Machine

/-! ### The Timebase at a boundary -/

theorem State.runBoundary_tb (forced quiet : Bool) (s : State) :
    (State.runBoundary forced quiet s).tb = s.tb.boundary forced := by
  rw [State.runBoundary_eq]
  simp [State.evaluated, State.beforeEvaluation_tb]

theorem Timebase.boundary_eq (t : Timebase) (forced : Bool) : t.boundary forced =
    if forced = true ∨ t.rep = 0 then
      { active := t.staged, staged := t.staged, divider := 0, counter := 0, dir := .up, rep := t.staged.rep
        bnum := t.bnum + 1, run := t.run, frameEndDue := t.frameEndDue }
    else { t with divider := 0, counter := 0, dir := .up, rep := t.rep - 1 } := by
  unfold Timebase.boundary
  by_cases h : t.releases forced = true
  · rw [if_pos h, if_pos ((t.releases_iff forced).1 h)]
    rfl
  · rw [if_neg h, if_neg fun g => h ((t.releases_iff forced).2 g)]
    rfl

theorem Link.mem_ofKind {l : Link} {k : Nat} {n : Notice} : n ∈ l.ofKind k ↔ n ∈ l.notices ∧ n.occ.kind = k := by
  simp [Link.ofKind]

theorem Link.ofKind_eq_nil {l : Link} {k : Nat} : l.ofKind k = [] ↔ ∀ n ∈ l.notices, n.occ.kind ≠ k := by
  simp [Link.ofKind]

/-- The BOUNDARY notice of a boundary where none was pending (R7). -/
theorem State.timebaseWork_boundaries (forced quiet : Bool) (s : State) (h : s.link.ofKind 8 = []) :
    (s.timebaseWork forced quiet).link.ofKind 8 =
      if (forced = true ∧ quiet = false ∨ forced = false ∧ s.tb.rep = 0) ∧ s.link.mask.getLsbD 8 = true then
        [{ occ := .boundary (s.tb.bnum + 1) forced, count := 1 }] else [] := by
  by_cases hc : forced = true ∧ quiet = false ∨ forced = false ∧ s.tb.rep = 0
  · have hr : forced = true ∨ s.tb.rep = 0 := hc.imp And.left And.right
    have hoff : (s.tb.releases forced && !(forced && quiet)) = true := by
      rw [Bool.and_eq_true]
      refine ⟨(s.tb.releases_iff forced).2 hr, ?_⟩
      rcases hc with ⟨rfl, rfl⟩ | ⟨rfl, _⟩ <;> rfl
    have hlink : (s.timebaseWork forced quiet).link = s.link.offer (.boundary (s.tb.bnum + 1) forced) := by
      unfold State.timebaseWork State.offerIf
      dsimp only
      rw [if_pos hoff, Timebase.boundary_eq, if_pos hr]
      rfl
    have hk := Link.offer_ofKind s.link (.boundary (s.tb.bnum + 1) forced) (by simp [Occurrence.kind])
    rw [hlink]
    refine hk.trans ?_
    simp only [Occurrence.kind, h, if_true, hc, true_and]
  · have hoff : (s.tb.releases forced && !(forced && quiet)) = false := by
      cases forced <;> cases quiet <;> simp_all [Timebase.releases]
    have hlink : (s.timebaseWork forced quiet).link = s.link := by
      unfold State.timebaseWork State.offerIf
      dsimp only
      rw [hoff]
      rfl
    rw [hlink, h, if_neg fun g => hc g.1]

/-! ### The outputs at a boundary -/

theorem Out.follow_offA (o : Out) (mode : ChanMode) (dead : Nat) (p : Pattern) :
    (o.follow mode dead p).offA = 0 ∨ (o.follow mode dead p).offA = o.offA := by
  have ht : (o.take mode p).offA = o.offA := by cases p <;> rfl
  have hb : ∀ q : Out, (q.riseB dead p.delayed).offA = q.offA := by
    intro q
    unfold Out.riseB
    split <;> rfl
  rw [Out.follow, hb, ← ht]
  unfold Out.riseA
  split
  · exact Or.inl rfl
  · exact Or.inr rfl

theorem State.settledOut_offA (s : State) (c : ChanId) (o : Out) :
    (s.settledOut c o).offA = 0 ∨ (s.settledOut c o).offA = o.offA := by
  have h : (o.refresh s.tb).offA = o.offA := by rw [Out.refresh_eq]
  rw [← h]
  exact Out.follow_offA _ _ _ _

/-- Before its evaluation a boundary has taken the outputs on, and loaded level 0 where AUTO rearm clears a latch. -/
theorem State.beforeEvaluation_outs (forced quiet : Bool) (s : State) (c : ChanId) :
    (s.beforeEvaluation forced quiet).outs.get c = (s.outs.get c).resumed
    ∨ s.used c = true
      ∧ (s.beforeEvaluation forced quiet).outs.get c = { (s.outs.get c).resumed with compare := 0, side := .none } := by
  have hr : ∀ t : State, t.outs = s.resumeOuts.outs → t.outs.get c = (s.outs.get c).resumed := by
    intro t ht
    rw [ht, State.resumeOuts_outs]
  unfold State.beforeEvaluation
  cases s.tb.releases forced
  · left
    exact hr _ (by simp)
  · simp only [if_true]
    rw [State.autoTest_outs, State.rearmedOut, hr _ (by simp)]
    split
    · next h =>
      refine Or.inr ⟨?_, rfl⟩
      rw [State.used_iff]
      have hm := h.1
      have hmode : ∀ t : State, ((State.channelWork s true t).chans.get c).mode = (t.chans.get c).mode := by
        intro t
        have h1 := Channel.follows_adopt (t.chans.get c)
        simp only [State.channelWork, if_true, State.rampSteps, State.applyReleased, State.adoptConfigs, Bank.get_mapId]
        have h2 : ∀ (es : List Entry) (ch : Channel), (es.foldl Channel.release ch).mode = ch.mode := by
          intro es
          induction es with
          | nil => intro ch; rfl
          | cons e es ih => intro ch; exact ih _
        split <;> exact (h2 _ _).trans h1.mode
      rw [hmode] at hm
      simpa using hm
    · exact Or.inl rfl

/-- The outputs of a boundary follow the state after its evaluation, with what that loads (R66, R74). -/
theorem State.runBoundary_outs (forced quiet : Bool) (s : State) :
    (State.runBoundary forced quiet s).outs = (s.evaluated forced quiet).outputWork.outs := by
  rw [State.runBoundary_eq, State.settleOrder_outs]

theorem State.evaluated_outs (forced quiet : Bool) (s : State) :
    (s.evaluated forced quiet).outs = (s.beforeEvaluation forced quiet).outs := by
  simp [State.evaluated]

theorem State.runBoundary_offA (forced quiet : Bool) (s : State) (c : ChanId) :
    ((State.runBoundary forced quiet s).outs.get c).offA = 0
    ∨ ((State.runBoundary forced quiet s).outs.get c).offA = (s.outs.get c).resumed.offA := by
  have hload : (((s.evaluated forced quiet).loadCompare (s.evaluated forced quiet).used).outs.get c).offA
      = (s.outs.get c).resumed.offA := by
    have hb : ((s.evaluated forced quiet).outs.get c).offA = (s.outs.get c).resumed.offA := by
      rw [State.evaluated_outs]
      rcases State.beforeEvaluation_outs forced quiet s c with h | ⟨_, h⟩ <;> rw [h]
    rw [← hb]
    simp only [State.loadCompare, Bank.get_mapId]
    split <;> rfl
  rw [State.runBoundary_outs, ← hload]
  have hset : ∀ t : State, t.settle.outs.get c = t.settledOut c (t.outs.get c) := by
    intro t
    simp [State.settle, State.settleOn]
  rw [State.outputWork, hset]
  exact State.settledOut_offA _ c _

/-- What the Sequence Unit's work at a boundary leaves of the queue's thresholds. -/
theorem State.placePosting_thresholds (l : LineId) (r : PostRec) (s : State) :
    (s.placePosting l r).2.queue.holdAt = s.queue.holdAt ∧ (s.placePosting l r).2.queue.resumeAt = s.queue.resumeAt := by
  have hins : ∀ (o : Origin) (p : Posting),
      (s.insert o p).queue.holdAt = s.queue.holdAt ∧ (s.insert o p).queue.resumeAt = s.queue.resumeAt := by
    intro o p
    unfold State.insert State.holdAfterAppend
    repeat' split
    all_goals exact ⟨rfl, rfl⟩
  unfold State.placePosting
  repeat' split
  · exact ⟨rfl, rfl⟩
  · exact ⟨rfl, rfl⟩
  · exact hins _ _
  · exact ⟨rfl, rfl⟩

theorem State.placePostings_thresholds (l : LineId) (rs : List PostRec) (s : State) :
    (s.placePostings l rs).2.queue.holdAt = s.queue.holdAt
    ∧ (s.placePostings l rs).2.queue.resumeAt = s.queue.resumeAt := by
  induction rs generalizing s with
  | nil => exact ⟨rfl, rfl⟩
  | cons r rs ih =>
    obtain ⟨h1, h2⟩ := s.placePosting_thresholds l r
    obtain ⟨g1, g2⟩ := ih (s.placePosting l r).2
    exact ⟨g1.trans h1, g2.trans h2⟩

theorem State.enterLine_thresholds (l : LineId) (cause : EntryCause) (s : State) :
    (s.enterLine l cause).2.queue.holdAt = s.queue.holdAt
    ∧ (s.enterLine l cause).2.queue.resumeAt = s.queue.resumeAt :=
  State.placePostings_thresholds l _ { s with seq := s.seq.enter l cause }

theorem State.evaluate_thresholds (s : State) :
    s.evaluate.queue.holdAt = s.queue.holdAt ∧ s.evaluate.queue.resumeAt = s.queue.resumeAt := by
  unfold State.evaluate
  split
  · dsimp only
    split
    · exact ⟨rfl, rfl⟩
    · split
      · exact State.enterLine_thresholds ..
      · exact ⟨rfl, rfl⟩
  · exact ⟨rfl, rfl⟩

theorem State.runBoundary_thresholds (forced quiet : Bool) (s : State) :
    (State.runBoundary forced quiet s).queue.holdAt = s.queue.holdAt
    ∧ (State.runBoundary forced quiet s).queue.resumeAt = s.queue.resumeAt := by
  have hb : (s.beforeEvaluation forced quiet).queue.holdAt = s.queue.holdAt
      ∧ (s.beforeEvaluation forced quiet).queue.resumeAt = s.queue.resumeAt := by
    rw [State.beforeEvaluation_queue]
    split <;> exact ⟨rfl, rfl⟩
  have he : ∀ r, ((s.beforeEvaluation forced quiet).sequenceWork r).queue.holdAt = s.queue.holdAt
      ∧ ((s.beforeEvaluation forced quiet).sequenceWork r).queue.resumeAt = s.queue.resumeAt := by
    intro r
    rw [← hb.1, ← hb.2]
    cases r
    · exact State.evaluate_thresholds _
    · exact State.evaluate_thresholds { s.beforeEvaluation forced quiet with
        seq := (s.beforeEvaluation forced quiet).seq.countDwell }
  rw [State.runBoundary_eq, State.settleOrder_queue, State.outputWork_queue]
  exact he _

/-- Settles O12. -/
theorem boundaryMovesTimebase : Obligations.BoundaryMovesTimebase := by
  refine ⟨fun forced quiet s => ?_, fun forced quiet s hnone => ?_, ?_⟩
  · rw [State.runBoundary_tb, Timebase.boundary_eq]
  · have hkind := (State.runBoundary_boundaries forced quiet s).trans
      (s.timebaseWork_boundaries forced quiet (Link.ofKind_eq_nil.2 hnone))
    constructor
    · have hex : (∃ n ∈ (State.runBoundary forced quiet s).link.notices, n.occ.kind = 8)
          ↔ (State.runBoundary forced quiet s).link.ofKind 8 ≠ [] := by
        rw [ne_eq, Link.ofKind_eq_nil]
        push Not
        rfl
      rw [hex, hkind]
      split <;> simp_all
    · intro n hn hk
      have hmem := Link.mem_ofKind.2 ⟨hn, hk⟩
      rw [hkind] at hmem
      split at hmem
      · exact List.mem_singleton.1 hmem
      · cases hmem
  · rintro forced quiet s u rfl
    obtain ⟨h1, h2, h3, h4, h5, h6, h7, h8⟩ := s.beforeEvaluation_kept forced quiet
    have hkept : ∀ r, let u := ((s.beforeEvaluation forced quiet).sequenceWork r).outputWork.settleOrder s.link.notices.length
        u.pending = s.pending ∧ u.senses = s.senses ∧ u.sampler = s.sampler ∧ u.ils = s.ils ∧ u.home = s.home
        ∧ u.check = s.check ∧ u.ctl = s.ctl ∧ u.pins = s.pins := by
      simp [h1, h2, h3, h4, h5, h6, h7, h8]
    obtain ⟨k1, k2, k3, k4, k5, k6, k7, k8⟩ := hkept (s.tb.releases forced)
    obtain ⟨t1, t2⟩ := s.runBoundary_thresholds forced quiet
    exact ⟨k1, k2, k3, k4, k5, k6, k7, k8, (s.runBoundary_offers forced quiet).rest, t1, t2,
      s.runBoundary_offA forced quiet⟩

/-! ### WITHDRAW and FORCE_BOUNDARY -/

theorem getLsbD_zero_of_le_one {f : Byte} (h : f.toNat ≤ 1) : f.getLsbD 0 = decide (f = 1) := by
  obtain rfl | rfl : f = 0 ∨ f = 1 := by
    rcases Nat.le_one_iff_eq_zero_or_eq_one.1 h with g | g
    · exact Or.inl (BitVec.eq_of_toNat_eq g)
    · exact Or.inr (BitVec.eq_of_toNat_eq g)
  · rfl
  · rfl

/-- A WITHDRAW body whose channel is not used, or whose kinds are none or undefined, is refused (R34). -/
theorem State.takeWithdraw_refused {b k : Byte} {s : State}
    (h : (¬∃ c : ChanId, b.toNat = c.val ∧ (s.chans.get c).mode ≠ .unused) ∨ k = 0 ∨ 16 ≤ k.toNat) :
    s.takeWithdraw [b, k] = .refuse .badArg [] s := by
  unfold State.takeWithdraw
  dsimp only
  split
  · rfl
  · next c hc =>
    split
    · rfl
    · next hu =>
      rcases h with h | h
      · refine absurd ⟨c, chanOf_eq_some.1 hc, (s.used_iff c).1 ?_⟩ h
        simpa using hu
      · exact if_pos h

/-- A WITHDRAW that is taken removes the entries of its channel and kinds (R34). -/
theorem State.takeWithdraw_taken {b k : Byte} {s : State} {c : ChanId} {es : List Entry} (hb : b.toNat = c.val)
    (hu : (s.chans.get c).mode ≠ .unused) (hk : k ≠ 0) (hlt : k.toNat < 16)
    (hes : es = s.queue.entries.filter fun e => decide (¬(e.channel = c ∧ k.getLsbD e.setpoint.kind.code = true))) :
    s.takeWithdraw [b, k] = .ok [natByte (s.queue.entries.length - es.length), natByte es.length]
      { s with queue := afterRemoval s.queue es, link := flowOfRemoval s.queue es s.link } := by
  have hc : chanOf (byteAt [b, k] 0) = some c := chanOf_eq_some.2 hb
  have hkinds : ¬(byteAt [b, k] 1 = 0 ∨ 16 ≤ (byteAt [b, k] 1).toNat) := by
    rintro (h | h)
    · exact hk h
    · exact absurd h (Nat.not_le.2 hlt)
  have hsel : s.queue.entries.filter (fun e => !withdraws c k e) = es := by
    rw [hes]
    refine List.filter_congr fun e _ => ?_
    simp [withdraws, inKinds]
  have hcount : s.countEntries (withdraws c k) = s.queue.entries.length - es.length := by
    have := List.length_eq_length_filter_add (l := s.queue.entries) (withdraws c k)
    rw [hsel] at this
    rw [State.countEntries]
    omega
  have hremove := State.removeEntries_eq (withdraws c k) s
  rw [hsel] at hremove
  unfold State.takeWithdraw
  simp only [hc, (s.used_iff c).2 hu, Bool.not_true, Bool.false_eq_true, if_false, hkinds]
  rw [show byteAt [b, k] 1 = k from rfl, hremove, hcount]
  rfl

/-- Settles O42; the boundary that FORCE_BOUNDARY raises is `State.runBoundary`. -/
theorem withdrawAndForceBoundary : Obligations.WithdrawAndForceBoundary := by
  constructor
  · intro tag b k s hr hm
    obtain ⟨t, he, ht⟩ := exec_take (k := .withdraw) rfl hr rfl ⟨rfl, by rw [hm]; rfl, rfl, rfl⟩
      (c := .withdraw tag [b, k])
    exact ⟨t, he, fun h => ht.of_answer (State.takeWithdraw_refused h),
      fun c es hb hu hk hlt hes => ht.of_answer (State.takeWithdraw_taken hb hu hk hlt hes)⟩
  · intro tag f s hr hm
    obtain ⟨t, he, ht⟩ := exec_take (k := .forceBoundary) rfl hr rfl ⟨rfl, by rw [hm]; rfl, rfl, rfl⟩
      (c := .forceBoundary tag [f])
    refine ⟨t, he, fun h => ht.of_answer (if_pos h), fun h => ?_⟩
    have hflag := getLsbD_zero_of_le_one h
    have htb := State.runBoundary_tb true (decide (f = 1)) s
    rw [Timebase.boundary_eq, if_pos (Or.inl rfl)] at htb
    have htaken : Taken (.forceBoundary tag [f]) .ok (wordBytes (s.tb.bnum + 1))
        (State.runBoundary true (decide (f = 1)) s) t := by
      refine ht.of_answer ((if_neg (Nat.not_lt.2 h)).trans ?_)
      show Answer.ok (wordBytes (State.runBoundary true (f.getLsbD 0) s).tb.bnum) (State.runBoundary true (f.getLsbD 0) s) = _
      rw [hflag, htb]
      rfl
    have ht' : t.tb = (State.runBoundary true (decide (f = 1)) s).tb := by rw [htaken.linkFree]
    refine ⟨htaken, ?_, ?_, ?_, ?_⟩ <;> rw [ht', htb]

end Sys2Proof.Machine
end

section
/-! SUPPORT. What a boundary does to the channels, their accumulators and their outputs. -/

namespace Sys2Proof.Machine

/-! ### Channels at a boundary -/

theorem autoEligible_congr {s t : State} {c : ChanId} (hmode : (t.chans.get c).mode = (s.chans.get c).mode)
    (hmember : (t.chans.get c).member = (s.chans.get c).member) (htrip : t.trips.get c = s.trips.get c)
    (hils : t.ils = s.ils) : autoEligible t c ↔ autoEligible s c := by
  unfold autoEligible eligible
  rw [hmode, hmember, htrip, hils]

theorem Channel.adopt_eq (ch : Channel) : ch.adopt = { ch with cfg := ch.pendCfg.getD ch.cfg, pendCfg := none } := by
  obtain ⟨_, _, _, _, _, g, _, _⟩ := ch
  cases g <;> rfl

/-- Channel `c` at a boundary after adoption and the released entries (R51, R57). -/
def State.releasedChannel (forced : Bool) (s : State) (c : ChanId) : Channel :=
  if s.tb.releases forced then
    (s.queue.entries.filter fun e => decide (e.remaining = 0 ∧ e.channel = c)).foldl Channel.release
      { s.chans.get c with cfg := (s.chans.get c).pendCfg.getD (s.chans.get c).cfg, pendCfg := none }
  else s.chans.get c

theorem State.releasedChannel_layout (forced : Bool) (s : State) (c : ChanId) :
    (s.releasedChannel forced c).mode = (s.chans.get c).mode
    ∧ (s.releasedChannel forced c).member = (s.chans.get c).member := by
  unfold State.releasedChannel
  split
  · exact Channel.foldl_release_layout _ _
  · exact ⟨rfl, rfl⟩

theorem State.afterRelease_chans (forced quiet : Bool) (s : State) (c : ChanId) :
    (s.afterRelease forced quiet).chans.get c = s.releasedChannel forced c := by
  unfold State.afterRelease State.releasedChannel
  cases s.tb.releases forced
  · simp
  · simp only [if_true, State.applyReleased, State.adoptConfigs, Bank.get_mapId, State.accumulate_chans,
      State.countdown_chans, State.timebaseWork_chans, State.resumeOuts_chans, Channel.adopt_eq, State.dueEntries,
      List.filter_filter]
    exact congrArg (fun es => List.foldl Channel.release _ es) (List.filter_congr fun e _ => by simp [Bool.and_comm])

theorem State.afterRelease_kept (forced quiet : Bool) (s : State) :
    (s.afterRelease forced quiet).trips = s.trips ∧ (s.afterRelease forced quiet).ils = s.ils := by
  unfold State.afterRelease
  cases s.tb.releases forced <;> simp

/-- Channel `c` at a boundary after its ramp step (R61, R62). -/
def State.steppedChannel (forced : Bool) (s : State) (c : ChanId) : Channel :=
  let a := s.releasedChannel forced c
  if s.driveState c = .ramping ∧ a.act.ramp ≠ none ∧ a.act.drive = .on then { a with act := a.act.step } else a

theorem State.steps_iff (before s : State) (c : ChanId) : State.steps before s c = true
    ↔ before.driveState c = .ramping ∧ (s.chans.get c).act.ramp ≠ none ∧ (s.chans.get c).act.drive = .on := by
  simp [State.steps, Option.isSome_iff_ne_none, and_assoc]

theorem State.rampSteps_chan (forced quiet : Bool) (s : State) (c : ChanId) :
    (State.rampSteps s (s.afterRelease forced quiet)).chans.get c = s.steppedChannel forced c := by
  have h := State.steps_iff s (s.afterRelease forced quiet) c
  rw [State.afterRelease_chans] at h
  simp only [State.rampSteps, Bank.get_mapId, State.afterRelease_chans, State.steppedChannel, h]

theorem State.steppedChannel_layout (forced : Bool) (s : State) (c : ChanId) :
    (s.steppedChannel forced c).mode = (s.chans.get c).mode
    ∧ (s.steppedChannel forced c).member = (s.chans.get c).member := by
  have h := s.releasedChannel_layout forced c
  unfold State.steppedChannel
  dsimp only
  split <;> exact h

/-- What AUTO rearm does to one channel and its trip (R111, R112). -/
theorem State.autoTest_chan (s : State) (c : ChanId) :
    s.autoTest.chans.get c = (if autoEligible s c then { s.chans.get c with act := stoppedSet (s.chans.get c).act }
      else s.chans.get c)
    ∧ s.autoTest.trips.get c = if autoEligible s c then { latch := false, cause := 0 } else s.trips.get c := by
  simp only [State.autoTest, State.clearLatches, State.loadCompare, Bank.get_mapId, State.rearmable_iff]
  exact ⟨rfl, rfl⟩

/-- Channel `c` and its trip before the evaluation of a boundary. -/
theorem State.beforeEvaluation_chan (forced quiet : Bool) (s : State) (c : ChanId) :
    (s.beforeEvaluation forced quiet).chans.get c =
      (if s.tb.releases forced = true ∧ autoEligible s c then
        { s.steppedChannel forced c with act := stoppedSet (s.steppedChannel forced c).act }
      else s.steppedChannel forced c)
    ∧ (s.beforeEvaluation forced quiet).trips.get c =
      if s.tb.releases forced = true ∧ autoEligible s c then { latch := false, cause := 0 } else s.trips.get c := by
  obtain ⟨htrips, hils⟩ := s.afterRelease_kept forced quiet
  obtain ⟨hmode, hmember⟩ := s.steppedChannel_layout forced c
  have hchan := s.rampSteps_chan forced quiet c
  have huc : (s.afterRamps forced quiet).chans.get c = s.steppedChannel forced c := hchan
  have hut : (s.afterRamps forced quiet).trips = s.trips := by simp [State.afterRamps, htrips]
  have hui : (s.afterRamps forced quiet).ils = s.ils := by simp [State.afterRamps, hils]
  rw [State.beforeEvaluation_eq]
  generalize s.afterRamps forced quiet = u at huc hut hui
  have hel : autoEligible u c ↔ autoEligible s c :=
    autoEligible_congr (by rw [huc]; exact hmode) (by rw [huc]; exact hmember) (by rw [hut]) hui
  cases s.tb.releases forced
  · simp [huc, hut]
  · simp only [if_true, true_and, (u.autoTest_chan c).1, (u.autoTest_chan c).2, hel, huc, hut, and_self]

theorem State.runBoundary_chans (forced quiet : Bool) (s : State) :
    (State.runBoundary forced quiet s).chans = (s.beforeEvaluation forced quiet).chans
    ∧ (State.runBoundary forced quiet s).trips = (s.beforeEvaluation forced quiet).trips
    ∧ (State.runBoundary forced quiet s).accs = (s.beforeEvaluation forced quiet).accs := by
  rw [State.runBoundary_eq]
  simp [State.evaluated]

/-! ### The Sequence Unit's events at a boundary -/

theorem State.placePostings_seq (l : LineId) (rs : List PostRec) (s : State) :
    (s.placePostings l rs).2.seq = { s.seq with drops := (s.placePostings l rs).2.seq.drops } := by
  induction rs generalizing s with
  | nil => rfl
  | cons r rs ih =>
    have h1 : (s.placePosting l r).2.seq = { s.seq with drops := (s.placePosting l r).2.seq.drops } := by
      unfold State.placePosting
      repeat' split
      · rfl
      · rfl
      · simp
      · rfl
    show (State.placePostings l rs (s.placePosting l r).2).2.seq = _
    rw [ih, h1]
    rfl

/-- What an entry leaves of the Sequence Unit (R148). -/
theorem State.enterLine_seq (l : LineId) (cause : EntryCause) (s : State) :
    (s.enterLine l cause).2.seq = { s.seq.enter l cause with drops := (s.enterLine l cause).2.seq.drops } :=
  State.placePostings_seq l _ { s with seq := s.seq.enter l cause }

/-- An evaluation turns the held events into latches (R146). -/
theorem State.evaluate_events (s : State) (h : s.seq.unit = .running) :
    s.evaluate.seq.latches = s.seq.held ∧ s.evaluate.seq.held = .empty ∧ s.evaluate.seq.unit = .running
    ∧ s.evaluate.seq.home = s.seq.home ∧ s.evaluate.seq.table = s.seq.table
    ∧ s.evaluate.seq.anySlots = s.seq.anySlots := by
  unfold State.evaluate
  rw [if_pos h]
  dsimp only
  split
  · exact ⟨rfl, rfl, h, rfl, rfl, rfl⟩
  · split
    · next l _ =>
      have he := State.enterLine_seq l .slot s
      dsimp only [SeqUnit.turnEvents]
      rw [he]
      exact ⟨rfl, rfl, h, rfl, rfl, rfl⟩
    · exact ⟨rfl, rfl, h, rfl, rfl, rfl⟩

theorem SeqUnit.hold_of_running {u : SeqUnit} (h : u.unit = .running) (r a : Half) :
    (u.hold r a).held = { u.held with rampDone := u.held.rampDone ||| r, accum := u.held.accum ||| a } := by
  simp [SeqUnit.hold, h]

/-- The held events of a RUNNING unit before the evaluation of a boundary (R143). -/
theorem State.beforeEvaluation_held (forced quiet : Bool) (s : State) (h : s.seq.unit = .running) :
    (s.beforeEvaluation forced quiet).seq.held = { s.seq.held with
      rampDone := s.seq.held.rampDone ||| State.rampsDone s (s.afterRelease forced quiet)
      accum := s.seq.held.accum ||| chanMask s.accCrosses } := by
  have h0 : (s.seq.hold 0 (chanMask s.accCrosses)).unit = .running := by rw [SeqUnit.hold_eq]; exact h
  rw [State.beforeEvaluation_seq, SeqUnit.hold_of_running h0, SeqUnit.hold_of_running h]
  simp

theorem State.runBoundary_seq (forced quiet : Bool) (s : State) :
    (State.runBoundary forced quiet s).seq = (s.evaluated forced quiet).seq := by
  rw [State.runBoundary_eq]
  simp

/-- The state that a boundary evaluates: after AUTO rearm and the raised dwell counter (log 23). -/
def State.atWinner (forced quiet : Bool) (s : State) : State :=
  { s.beforeEvaluation forced quiet with
    seq := if s.tb.releases forced = true then (s.beforeEvaluation forced quiet).seq.countDwell
      else (s.beforeEvaluation forced quiet).seq }

theorem State.evaluated_eq (forced quiet : Bool) (s : State) :
    s.evaluated forced quiet = (s.atWinner forced quiet).evaluate := by
  unfold State.evaluated State.sequenceWork State.atWinner
  cases s.tb.releases forced <;> rfl

theorem SeqUnit.countDwell_eq (u : SeqUnit) : u.countDwell =
    { u with dwell := if u.unit = .disabled then u.dwell else min (u.dwell + 1) 65535 } := by
  unfold SeqUnit.countDwell
  split <;> rfl

/-- The Sequence Unit that a boundary evaluates: held events and dwell counter have moved (R143, R145). -/
theorem State.atWinner_seq (forced quiet : Bool) (s : State) : (s.atWinner forced quiet).seq =
    { s.seq with
      held := (s.beforeEvaluation forced quiet).seq.held
      dwell := if (forced = true ∨ s.tb.rep = 0) ∧ s.seq.unit ≠ .disabled then min (s.seq.dwell + 1) 65535
        else s.seq.dwell } := by
  have h := s.beforeEvaluation_seq_held forced quiet
  simp only [State.atWinner, ← Timebase.releases_iff]
  by_cases hr : s.tb.releases forced = true
  · rw [if_pos hr, SeqUnit.countDwell_eq, h]
    by_cases hd : s.seq.unit = .disabled <;> simp [hd, hr]
  · rw [if_neg hr, h]
    simp [hr]

/-- The latches of a RUNNING unit after a boundary are the events held before its evaluation (R146). -/
theorem State.runBoundary_latches (forced quiet : Bool) (s : State) (h : s.seq.unit = .running) :
    (State.runBoundary forced quiet s).seq.latches = { s.seq.held with
      rampDone := s.seq.held.rampDone ||| State.rampsDone s (s.afterRelease forced quiet)
      accum := s.seq.held.accum ||| chanMask s.accCrosses } := by
  have hw := s.atWinner_seq forced quiet
  rw [State.runBoundary_seq, State.evaluated_eq, (State.evaluate_events _ (by rw [hw]; exact h)).1, hw]
  exact s.beforeEvaluation_held forced quiet h

theorem ActiveSet.completes_iff (a : ActiveSet) :
    a.completes = true ↔ ∃ r ∈ a.ramp, r.move a.level = r.target := by
  unfold ActiveSet.completes
  cases a.ramp <;> simp

/-- Settles O14, from the channel before the evaluation of the boundary. -/
theorem boundaryMovesChannels : Obligations.BoundaryMovesChannels := by
  rintro forced quiet s c release a b rfl ha hb
  have hr : (decide (forced = true ∨ s.tb.rep = 0) = true) = (s.tb.releases forced = true) := by
    rw [decide_eq_true_eq, Timebase.releases_iff]
  simp only [hr] at ha ⊢
  have ha' : s.releasedChannel forced c = a := ha.symm
  have hb' : s.steppedChannel forced c = b := by rw [State.steppedChannel, ha', hb]
  obtain ⟨hchans, htrips, _⟩ := State.runBoundary_chans forced quiet s
  obtain ⟨hc, ht⟩ := s.beforeEvaluation_chan forced quiet c
  refine ⟨by rw [hchans, hc, hb'], by rw [htrips, ht], fun hrun => ?_⟩
  rw [State.runBoundary_latches forced quiet s hrun]
  dsimp only
  rw [BitVec.getLsbD_or, State.rampsDone, chanMask_getLsbD]
  congr 1
  rw [Bool.eq_iff_iff, Bool.and_eq_true, State.steps_iff, ActiveSet.completes_iff, State.afterRelease_chans, ha',
    decide_eq_true_eq]
  constructor
  · rintro ⟨⟨h1, _, h3⟩, h4⟩
    exact ⟨h1, h3, h4⟩
  · rintro ⟨h1, h3, r, hr', h4⟩
    have hne : a.act.ramp ≠ none := by
      intro e
      rw [e] at hr'
      cases hr'
    exact ⟨⟨h1, hne, h3⟩, r, hr', h4⟩

end Sys2Proof.Machine
end

section
/-! SUPPORT. What a boundary adds to the accumulators, loads into the Output Stage, and offers for its additions. -/

namespace Sys2Proof.Machine

/-! ### Accumulators -/

theorem DriveState.drives_iff (d : DriveState) : d.drives = true ↔ d = .driving ∨ d = .ramping := by
  cases d <;> simp [DriveState.drives]

theorem Channel.changesAccMode_iff (ch : Channel) :
    ch.changesAccMode = true ↔ ∃ p ∈ ch.pendCfg, p.accMode ≠ ch.cfg.accMode := by
  unfold Channel.changesAccMode
  cases ch.pendCfg <;> simp

theorem State.accumulate_acc (b s : State) (c : ChanId) :
    (State.accumulate b s).accs.get c = b.addition c (s.accs.get c) := by
  unfold State.accumulate
  rw [State.foldl_offerAddition]
  exact Bank.get_mapId ..

/-- An accumulator after a boundary (R51, R119, R130). -/
theorem State.runBoundary_acc (forced quiet : Bool) (s : State) (c : ChanId) :
    (State.runBoundary forced quiet s).accs.get c =
      if s.tb.releases forced = true ∧ (s.chans.get c).changesAccMode = true then .cleared
      else s.addition c (s.accs.get c) := by
  have hkept : (s.beforeEvaluation forced quiet).accs = (s.afterRelease forced quiet).accs := by
    rw [State.beforeEvaluation_eq, State.afterRamps]
    split <;> simp
  rw [(State.runBoundary_chans forced quiet s).2.2, hkept, State.afterRelease]
  cases s.tb.releases forced
  · simp [State.accumulate_acc]
  · simp [State.adoptConfigs, State.accumulate_acc]

/-! ### Outputs -/

/-- The level and the layout that a boundary's outputs are loaded from. -/
theorem State.evaluated_chans (forced quiet : Bool) (s : State) :
    (s.evaluated forced quiet).chans = (State.runBoundary forced quiet s).chans := by
  rw [State.runBoundary_eq]
  simp

theorem State.beforeEvaluation_mode (forced quiet : Bool) (s : State) (c : ChanId) :
    ((s.beforeEvaluation forced quiet).chans.get c).mode = (s.chans.get c).mode := by
  rw [(s.beforeEvaluation_chan forced quiet c).1]
  split <;> exact (s.steppedChannel_layout forced c).1

theorem State.runBoundary_mode (forced quiet : Bool) (s : State) (c : ChanId) :
    ((State.runBoundary forced quiet s).chans.get c).mode = (s.chans.get c).mode := by
  rw [(State.runBoundary_chans forced quiet s).1, State.beforeEvaluation_mode]

theorem State.settleOrder_linkFree (old : Nat) (s : State) : s.settleOrder old =
    { s with link := (s.settleOrder old).link, freeCount := (s.settleOrder old).freeCount } := by
  unfold State.settleOrder
  dsimp only
  rw [orderNew_state]

/-- Every channel's pins show its state after a boundary, from what the boundary loaded (R66, R74, R77). -/
theorem State.runBoundary_shows (forced quiet : Bool) (s : State) (c : ChanId) :
    let u := State.runBoundary forced quiet s
    Shows u c (if (s.chans.get c).mode = .unused then (s.outs.get c).resumed
      else (s.outs.get c).resumed.loaded (s.chans.get c).mode (u.chans.get c).act.level u.tb.active.period)
      (u.outs.get c) := by
  intro u
  have hmode : ((s.evaluated forced quiet).chans.get c).mode = (s.chans.get c).mode := by
    rw [State.evaluated_chans, State.runBoundary_mode]
  have hused : (s.evaluated forced quiet).used c = s.used c := State.used_congr hmode
  have hshow := State.outputWork_shows (s.evaluated forced quiet) c
  have htb : (s.evaluated forced quiet).tb = u.tb := by rw [State.runBoundary_tb, State.evaluated]; simp [State.beforeEvaluation_tb]
  rw [hused, hmode, htb, State.evaluated_chans, State.evaluated_outs] at hshow
  have hload : (if s.used c = true then ((s.beforeEvaluation forced quiet).outs.get c).loaded (s.chans.get c).mode
        (u.chans.get c).act.level u.tb.active.period else (s.beforeEvaluation forced quiet).outs.get c)
      = if (s.chans.get c).mode = .unused then (s.outs.get c).resumed
        else (s.outs.get c).resumed.loaded (s.chans.get c).mode (u.chans.get c).act.level u.tb.active.period := by
    by_cases hm : (s.chans.get c).mode = .unused
    · have hu : s.used c = false := by
        rw [← Bool.not_eq_true, State.used_iff, not_not]
        exact hm
      rw [if_neg (by rw [hu]; exact Bool.false_ne_true), if_pos hm]
      rcases s.beforeEvaluation_outs forced quiet c with h | ⟨h, _⟩
      · exact h
      · rw [hu] at h
        cases h
    · rw [if_pos ((s.used_iff c).2 hm), if_neg hm]
      rcases s.beforeEvaluation_outs forced quiet c with h | ⟨_, h⟩ <;> rw [h]
      rfl
  rw [hload] at hshow
  rw [show u.outs = _ from State.runBoundary_outs forced quiet s]
  exact Shows.linkFree (State.settleOrder_linkFree _ (s.evaluated forced quiet).outputWork) hshow

theorem Out.loaded_compare (o : Out) (m : ChanMode) (v : Int) (p : Nat) :
    (o.loaded m v p).compare = v.natAbs * p / 10000 := rfl

theorem Out.loaded_side_directional (o : Out) (v : Int) (p : Nat) :
    (o.loaded .directional v p).side = if 0 < v then .a else if v < 0 then .b else .none := by
  simp [Out.loaded]

theorem Out.resumed_kept (o : Out) : o.resumed.compare = o.compare ∧ o.resumed.side = o.side := by
  unfold Out.resumed
  split <;> exact ⟨rfl, rfl⟩

/-- An output wanted by a pattern that shows stays ACTIVE where it was (R79). -/
theorem Shows.stays {s : State} {c : ChanId} {o u : Out} (h : Shows s c o u) :
    (u.wantA = true → o.pinA = .active →
      u.pinA = .active ∧ ((s.chans.get c).mode = .complement → u.wtA = o.wtA))
    ∧ (u.wantB = true → o.pinB = .active →
      u.pinB = .active ∧ ((s.chans.get c).mode = .complement → u.wtB = o.wtB)) := by
  obtain ⟨_, _, _, h⟩ := h
  split at h
  · rw [h]
    simp
  · obtain ⟨hwa, hwb, hta, htb, hpa, hpb, _⟩ := h
    refine ⟨fun hw ho => ?_, fun hw ho => ?_⟩
    · rw [hwa] at hw
      exact ⟨hpa.2 ⟨hw, Or.inl ho⟩, fun hm => by rw [hta, if_pos ⟨hw, hm⟩]⟩
    · rw [hwb] at hw
      exact ⟨hpb.2 ⟨hw, Or.inl ho⟩, fun hm => by rw [htb, if_pos ⟨hw, hm⟩]⟩

theorem Out.resumed_of_prior {o : Out} {h : Shown} (hp : o.prior = some h) : o.resumed = { o with
    ref := h.ref, wantA := h.wantA, wantB := h.wantB, wtA := h.wtA, wtB := h.wtB, offA := h.offA, offB := h.offB
    pinA := h.pinA, pinB := h.pinB } := by
  unfold Out.resumed
  rw [hp]

/-- What the first of two boundaries on one drive clock remembers of a channel: what was left of what it showed
(log 33). -/
theorem State.runBoundary_prior (forced quiet : Bool) (s : State) (c : ChanId) (h : (s.outs.get c).prior = none) :
    ((State.runBoundary forced quiet s).outs.get c).prior = some ((s.outs.get c).shown.left (s.chans.get c).mode
      ((State.runBoundary forced quiet s).wants c (s.outs.get c).ref (s.outs.get c).side)) := by
  obtain ⟨_, hp, _⟩ := State.runBoundary_shows forced quiet s c
  have hr : (s.outs.get c).resumed.prior = some (s.outs.get c).shown := by
    unfold Out.resumed
    rw [h]
    rfl
  rw [hp, State.runBoundary_mode]
  split
  · rw [hr]
    rfl
  · rw [show ((s.outs.get c).resumed.loaded _ _ _).prior = _ from hr]
    rfl

/-- A boundary's load keeps what an output record shows, but for its compare value and side. -/
theorem Out.loaded_pins (o : Out) (m : ChanMode) (v : Int) (p : Nat) :
    (o.loaded m v p).pinA = o.pinA ∧ (o.loaded m v p).pinB = o.pinB ∧ (o.loaded m v p).wtA = o.wtA
    ∧ (o.loaded m v p).wtB = o.wtB := ⟨rfl, rfl, rfl, rfl⟩

/-! ### The notices of the additions -/

/-- The one notice that occurrences of the channels `xs` have merged into, in a queue without it before. -/
def gathered (mk : Half → Occurrence) (xs : List ChanId) : List Notice :=
  if xs = [] then [] else [{ occ := mk (chanMask fun d => decide (d ∈ xs)), count := xs.length }]

/-- One more channel's occurrence merges into the notice (R188). -/
theorem Link.offer_gathered {mk : Half → Occurrence} {k : Nat} {l : Link} {xs : List ChanId} (c : ChanId) (hk : k ≠ 0)
    (hkind : ∀ x, (mk x).kind = k) (hmerge : ∀ x y, (mk x).merge (mk y) = mk (x ||| y))
    (hmask : l.mask.getLsbD k = true) (hl : l.ofKind k = gathered mk xs) (hlen : xs.length < 255) :
    (l.offer (mk (oneChan c))).ofKind k = gathered mk (xs ++ [c]) := by
  have h := Link.offer_ofKind l (mk (oneChan c)) (by rw [hkind]; exact hk)
  rw [hkind, hl, if_pos hmask] at h
  rw [h]
  have hne : xs ++ [c] ≠ [] := by simp
  have hbits : ∀ d : ChanId, decide (d ∈ xs ++ [c]) = (decide (d ∈ xs) || decide (d = c)) := by
    intro d
    simp
  have hor : (chanMask fun d => decide (d ∈ xs ++ [c])) = (chanMask fun d => decide (d ∈ xs)) ||| oneChan c := by
    apply BitVec.eq_of_getLsbD_eq
    intro i hi
    have h1 := chanMask_getLsbD (fun d => decide (d ∈ xs ++ [c])) ⟨i, hi⟩
    have h2 := chanMask_getLsbD (fun d => decide (d ∈ xs)) ⟨i, hi⟩
    have h3 := oneChan_getLsbD c ⟨i, hi⟩
    rw [BitVec.getLsbD_or]
    exact h1.trans ((hbits _).trans (by rw [← h2, ← h3]))
  unfold gathered
  rw [if_neg hne, hor]
  by_cases hx : xs = []
  · subst hx
    have hz : (chanMask fun d : ChanId => decide (d ∈ ([] : List ChanId))) = 0 := by
      rw [chanMask_eq_zero]
      simp
    rw [hz]
    simp
  · rw [if_neg hx, if_neg (by simp)]
    have hcount : min (xs.length + 1) 255 = xs.length + 1 := by omega
    simp [Notice.absorb, hmerge, hcount]

/-- The additions of a list of channels offer the occurrences of one kind of those that `p` selects. -/
theorem State.foldl_gathered {mk : Half → Occurrence} {k : Nat} {b : State} {p : ChanId → Bool} (hk : k ≠ 0)
    (hkind : ∀ x, (mk x).kind = k) (hmerge : ∀ x y, (mk x).merge (mk y) = mk (x ||| y))
    (hstep : ∀ (s : State) (c : ChanId), (b.offerAddition s c).link.ofKind k
      = (if p c then s.link.offer (mk (oneChan c)) else s.link).ofKind k)
    (cs : List ChanId) (s : State) (xs : List ChanId) (hmask : s.link.mask.getLsbD k = true)
    (hs : s.link.ofKind k = gathered mk xs) (hlen : xs.length + cs.length < 256) :
    (cs.foldl b.offerAddition s).link.ofKind k = gathered mk (xs ++ cs.filter p) := by
  induction cs generalizing s xs with
  | nil => simpa using hs
  | cons c cs ih =>
    have hm : (b.offerAddition s c).link.mask.getLsbD k = true := by
      rw [(State.offerAddition_offers b s c).mask]
      exact hmask
    rw [List.length_cons] at hlen
    rw [List.foldl_cons, List.filter_cons]
    cases hp : p c
    · refine ih _ xs hm ?_ (by omega)
      rw [hstep, hp]
      exact hs
    · have hg := Link.offer_gathered c hk hkind hmerge hmask hs (by omega)
      have h := ih (b.offerAddition s c) (xs ++ [c]) hm ((hstep s c).trans (by rw [hp]; exact hg)) (by
        rw [List.length_append]
        simp
        omega)
      rwa [List.append_assoc] at h

/-- Nothing of a kind that the mask excludes is queued (R188). -/
theorem State.foldl_masked {k : Nat} {b : State} (hstep : ∀ (s : State) (c : ChanId), s.link.mask.getLsbD k = false →
      (b.offerAddition s c).link.ofKind k = s.link.ofKind k)
    (cs : List ChanId) (s : State) (hmask : s.link.mask.getLsbD k = false) :
    (cs.foldl b.offerAddition s).link.ofKind k = s.link.ofKind k := by
  induction cs generalizing s with
  | nil => rfl
  | cons c cs ih =>
    have hm : (b.offerAddition s c).link.mask.getLsbD k = false := by
      rw [(State.offerAddition_offers b s c).mask]
      exact hmask
    exact (ih _ hm).trans (hstep s c hmask)

theorem Link.offer_masked {l : Link} {o : Occurrence} {k : Nat} (hk : o.kind = k) (h0 : k ≠ 0)
    (hm : l.mask.getLsbD k = false) : (l.offer o).ofKind k = l.ofKind k := by
  subst hk
  rw [Link.offer_ofKind l o h0, hm]
  rfl

/-- One kind of an addition's occurrences, whatever the other is. -/
structure AdditionKind (b : State) (k : Nat) (mk : Half → Occurrence) (p : ChanId → Bool) : Prop where
  pos : k ≠ 0
  kind : ∀ x, (mk x).kind = k
  merge : ∀ x y, (mk x).merge (mk y) = mk (x ||| y)
  step : ∀ (s : State) (c : ChanId), (b.offerAddition s c).link.ofKind k
    = (if p c then s.link.offer (mk (oneChan c)) else s.link).ofKind k

theorem additionKind_accum (b : State) : AdditionKind b 5 .accum b.accOverflows where
  pos := by decide
  kind _ := rfl
  merge _ _ := rfl
  step s c := by
    have h := (State.offerIf_offers (ks := [4]) (b.accCrosses c) (o := .channelEvent (oneChan c))
      (State.offerIf (b.accOverflows c) (.accum (oneChan c)) s) (by simp [Occurrence.kind])).kinds 5 (by simp)
    refine h.trans ?_
    unfold State.offerIf
    cases b.accOverflows c <;> rfl

theorem additionKind_channelEvent (b : State) : AdditionKind b 4 .channelEvent b.accCrosses where
  pos := by decide
  kind _ := rfl
  merge _ _ := rfl
  step s c := by
    have h := State.offerIf_offers (ks := [5]) (b.accOverflows c) (o := .accum (oneChan c)) s (by simp [Occurrence.kind])
    have hsame : SameKinds [4] (State.offerIf (b.accOverflows c) (.accum (oneChan c)) s).link s.link :=
      ⟨h.mask, fun k hk => h.kinds k (by simp at hk; simp [hk])⟩
    unfold State.offerAddition
    generalize State.offerIf (b.accOverflows c) (.accum (oneChan c)) s = t at hsame
    unfold State.offerIf
    cases b.accCrosses c
    · exact hsame.kinds 4 (by simp)
    · exact (hsame.offer (o := .channelEvent (oneChan c)) (by simp [Occurrence.kind])).kinds 4 (by simp)

/-- The notices of the additions of a boundary, of one kind (R124, R127). -/
theorem State.accumulate_gathered {b : State} {k : Nat} {mk : Half → Occurrence} {p : ChanId → Bool}
    (h : AdditionKind b k mk p) (s : State) (hs : s.link.ofKind k = []) :
    (State.accumulate b s).link.ofKind k = if s.link.mask.getLsbD k = true then gathered mk (allChans.filter p) else [] := by
  split
  · next hm =>
    exact State.foldl_gathered h.pos h.kind h.merge h.step allChans
      { s with accs := s.accs.mapId b.addition, seq := s.seq.hold 0 (chanMask b.accCrosses) } [] hm hs (by simp [allChans])
  · next hm =>
    have hm' : s.link.mask.getLsbD k = false := by simpa using hm
    refine (State.foldl_masked (fun t c ht => ?_) allChans
      { s with accs := s.accs.mapId b.addition, seq := s.seq.hold 0 (chanMask b.accCrosses) } hm').trans hs
    rw [h.step]
    split
    · exact Link.offer_masked (h.kind _) h.pos ht
    · rfl

/-- The notices of the additions are those after the whole boundary. -/
theorem State.runBoundary_additions (forced quiet : Bool) (s : State) {k : Nat} (hk : k = 4 ∨ k = 5)
    (hs : s.link.ofKind k = []) : ∃ t : State, t.link.ofKind k = [] ∧ t.link.mask = s.link.mask
      ∧ (State.runBoundary forced quiet s).link.ofKind k = (State.accumulate s t).link.ofKind k := by
  have h1 := (State.timebaseWork_offers forced quiet s.resumeOuts)
  have h2 := fun t => OffersOnly.flow (State.countdown_flow t)
  have hlast : (State.runBoundary forced quiet s).link.ofKind k = (s.beforeEvaluation forced quiet).link.ofKind k :=
    ((State.runBoundary_link forced quiet s).kinds k (by simp)).trans
      ((State.sequenceWork_offers _ _).kinds k (by rcases hk with rfl | rfl <;> simp))
  have hramps : (s.beforeEvaluation forced quiet).link = (s.afterRelease forced quiet).link := by
    rw [State.beforeEvaluation_eq, State.afterRamps]
    split <;> simp
  have hk1 : (s.resumeOuts.timebaseWork forced quiet).link.ofKind k = [] := by
    rw [h1.kinds k (by rcases hk with rfl | rfl <;> simp)]
    exact hs
  have hm1 : (s.resumeOuts.timebaseWork forced quiet).link.mask = s.link.mask := h1.mask
  rw [hlast, hramps, State.afterRelease]
  cases s.tb.releases forced
  · exact ⟨_, hk1, hm1, by simp⟩
  · refine ⟨(s.resumeOuts.timebaseWork forced quiet).countdown, ?_, ?_, by simp⟩
    · rw [(h2 _).kinds k (by rcases hk with rfl | rfl <;> simp)]
      exact hk1
    · rw [(h2 _).mask]
      exact hm1

/-- The notice of the additions of one kind after a boundary, with its mask and count (R124, R127, R188). -/
theorem State.runBoundary_gathered (forced quiet : Bool) (s : State) {k : Nat} {mk : Half → Occurrence}
    {p : ChanId → Bool} (h : AdditionKind s k mk p) (hk : k = 4 ∨ k = 5) (hs : s.link.ofKind k = []) :
    (State.runBoundary forced quiet s).link.ofKind k =
      if chanMask p ≠ 0 ∧ s.link.mask.getLsbD k = true then
        [{ occ := mk (chanMask p), count := (allChans.filter fun c => (chanMask p).getLsbD c.val).length }]
      else [] := by
  obtain ⟨t, ht, hmask, e⟩ := State.runBoundary_additions forced quiet s hk hs
  rw [e, State.accumulate_gathered h t ht, hmask]
  have hsel : (allChans.filter fun c => (chanMask p).getLsbD c.val) = allChans.filter p :=
    List.filter_congr fun c _ => chanMask_getLsbD p c
  have hmem : (fun d => decide (d ∈ allChans.filter p)) = p := by
    funext d
    rw [Bool.eq_iff_iff]
    simp [List.mem_filter, mem_allChans]
  have hzero : allChans.filter p = [] ↔ chanMask p = 0 := by
    rw [chanMask_eq_zero, List.filter_eq_nil_iff]
    simp [mem_allChans]
  unfold gathered
  rw [hsel, hmem]
  by_cases hz : chanMask p = 0
  · simp [hz, hzero.2 hz]
  · rw [if_neg (mt hzero.1 hz)]
    simp only [ne_eq, hz, not_false_eq_true, true_and]

/-- Settles O15. -/
theorem boundaryAddsAndLoads : Obligations.BoundaryAddsAndLoads := by
  refine ⟨?_, ?_, ?_, ?_⟩
  · rintro forced quiet s c g rfl
    rw [State.runBoundary_acc]
    refine if_congr (and_congr (s.tb.releases_iff forced) (Channel.changesAccMode_iff _)) rfl ?_
    unfold State.addition State.adds
    exact if_congr (DriveState.drives_iff _) rfl rfl
  · rintro forced quiet s c u v rfl rfl
    have hshow := State.runBoundary_shows forced quiet s c
    obtain ⟨hcompare, hside⟩ := hshow.kept
    obtain ⟨hrc, hrs⟩ := (s.outs.get c).resumed_kept
    refine ⟨fun hm => ?_, fun hm => ?_, hshow⟩
    · rw [if_neg hm] at hcompare hside
      refine ⟨hcompare, fun hd => ?_⟩
      rw [hside, hd, Out.loaded_side_directional]
    · rw [if_pos hm] at hcompare hside
      exact ⟨hcompare.trans hrc, hside.trans hrs⟩
  · rintro f q f' q' due s u v c o w rfl rfl rfl rfl hprior hm
    generalize hu : State.runBoundary f q s = u
    have hmode : (u.chans.get c).mode = (s.chans.get c).mode := by rw [← hu, State.runBoundary_mode]
    have hp := State.runBoundary_prior f q s c hprior
    rw [hu] at hp
    have hshow := State.runBoundary_shows f' q' { u with tb := { u.tb with frameEndDue := due } } c
    have hvmode := State.runBoundary_mode f' q' { u with tb := { u.tb with frameEndDue := due } } c
    generalize hv : State.runBoundary f' q' { u with tb := { u.tb with frameEndDue := due } } = v at hshow hvmode
    have hvm : (v.chans.get c).mode = (s.chans.get c).mode := hvmode.trans hmode
    dsimp only at hshow
    rw [if_neg (by rw [hmode]; exact hm)] at hshow
    refine ⟨hshow.kept.1, fun a b d hw => ?_⟩
    rw [hw] at hp
    have hres := Out.resumed_of_prior hp
    obtain ⟨hstayA, hstayB⟩ := hshow.stays
    rw [hres, hvm] at hstayA hstayB
    refine ⟨fun ha hact hwant => ?_, fun hb hact hwant => ?_⟩
    · obtain ⟨h1, h2⟩ := hstayA hwant (by simp [Out.loaded, Shown.left, Out.shown, ha, hact])
      exact ⟨h1, fun hc => (h2 hc).trans (by simp [Out.loaded, Shown.left, Out.shown, ha, hc])⟩
    · obtain ⟨h1, h2⟩ := hstayB hwant (by simp [Out.loaded, Shown.left, Out.shown, hb, hact])
      exact ⟨h1, fun hc => (h2 hc).trans (by simp [Out.loaded, Shown.left, Out.shown, hb, hc])⟩
  · intro forced quiet s p m k hkp hmask hnone
    have hs : s.link.ofKind k = [] := Link.ofKind_eq_nil.2 hnone
    rcases hkp with ⟨rfl, rfl⟩ | ⟨rfl, rfl⟩
    · have hm : m = chanMask s.accOverflows := hmask.eq_chanMask _ fun c => by
        rw [State.accOverflows, Bool.and_eq_true, State.adds, DriveState.drives_iff]
      rw [hm]
      exact State.runBoundary_gathered forced quiet s (additionKind_accum s) (Or.inr rfl) hs
    · have hm : m = chanMask s.accCrosses := hmask.eq_chanMask _ fun c => by
        rw [State.accCrosses, Bool.and_eq_true, State.adds, DriveState.drives_iff]
      rw [hm]
      exact State.runBoundary_gathered forced quiet s (additionKind_channelEvent s) (Or.inl rfl) hs

end Sys2Proof.Machine
end

section
/-! SUPPORT. The line sequence: which slot wins, entering a line state, and the evaluation of a boundary. -/

namespace Sys2Proof.Machine

/-! ### Which slot wins -/

theorem Bank.getElem_data {α : Type} {n : Nat} (b : Bank α n) (i : Nat) (h : i < b.data.length) (hn : i < n) :
    b.data[i] = b.get ⟨i, hn⟩ := by
  obtain ⟨l, hl⟩ := b
  subst hl
  rfl

theorem Bank.data_length {α : Type} {n : Nat} (b : Bank α n) : b.data.length = n := by
  obtain ⟨l, hl⟩ := b
  exact hl

/-- The first record of a bank that a test finds. -/
theorem Bank.find?_first {α : Type} {n : Nat} (b : Bank α n) (p : α → Bool) (k : Fin n) (hk : p (b.get k) = true)
    (hfirst : ∀ j < k, p (b.get j) = false) : b.data.find? p = some (b.get k) := by
  have hlen := Bank.data_length b
  rw [List.find?_eq_some_iff_getElem]
  refine ⟨hk, k.val, by rw [hlen]; exact k.isLt, Bank.getElem_data b k.val _ k.isLt, fun j hj => ?_⟩
  rw [Bank.getElem_data b j (by omega) (hj.trans k.isLt), hfirst ⟨j, _⟩ hj]
  rfl

/-- No record of a bank passes a test. -/
theorem Bank.find?_none {α : Type} {n : Nat} (b : Bank α n) (p : α → Bool) (h : ∀ j, p (b.get j) = false) :
    b.data.find? p = none := by
  rw [List.find?_eq_none]
  intro a ha
  obtain ⟨i, rfl⟩ := (Bank.mem_data b a).1 ha
  rw [h i]
  exact Bool.false_ne_true

/-- A slot holds when its source is true with negate clear or false with it set (R134). -/
theorem State.slotHolds_iff (s : State) (t : Slot) : s.slotHolds t = true ↔ slotTrue s t := by
  have hsrc := State.sourceTrue_iff s t.source.toNat t.index.toNat
  unfold State.slotHolds Slot.isEmpty slotTrue
  by_cases hn : t.negate = 0 <;> cases hb : s.sourceTrue t.source.toNat t.index.toNat <;> rw [hb] at hsrc <;>
    simp_all

theorem slotTrue_iff (s : State) (t : Slot) : slotTrue s t ↔ t.source ≠ 0
    ∧ (t.negate = 0 ∧ sourceHolds s t.source.toNat t.index.toNat
      ∨ t.negate ≠ 0 ∧ ¬sourceHolds s t.source.toNat t.index.toNat) := by
  unfold slotTrue
  by_cases hn : t.negate = 0 <;> by_cases hs : sourceHolds s t.source.toNat t.index.toNat <;> simp [hn, hs]

theorem State.slotHolds_eq_false {s : State} {t : Slot} (h : ¬slotTrue s t) : s.slotHolds t = false := by
  rw [← Bool.not_eq_true, State.slotHolds_iff]
  exact h

/-- An any-state slot counts where it holds and leads elsewhere (R146). -/
theorem State.anySlot_iff (s : State) (cur : LineId) (t : Slot) :
    (s.slotHolds t && decide (lineOf t.target ≠ some cur)) = true ↔ slotTrue s t ∧ t.target.toNat ≠ cur.val := by
  rw [Bool.and_eq_true, State.slotHolds_iff, decide_eq_true_eq, ne_eq, lineOf_eq_some]

/-- Settles O17, from the first slot that `find?` finds. -/
theorem firstSlotThatHoldsWins : Obligations.FirstSlotThatHoldsWins := by
  refine ⟨?_, fun s t => ?_, fun s i => ?_⟩
  · rintro s cur own other counts rfl rfl rfl
    have hany : ∀ k, ¬(slotTrue s (s.seq.anySlots.get k) ∧ (s.seq.anySlots.get k).target.toNat ≠ cur.val) →
        (s.slotHolds (s.seq.anySlots.get k) && decide (lineOf (s.seq.anySlots.get k).target ≠ some cur)) = false := by
      intro k h
      rw [← Bool.not_eq_true, State.anySlot_iff]
      exact h
    refine ⟨fun k l hk hfirst hl => ?_, fun k l hown hk hfirst hl => ?_, fun hown hnone => ?_⟩
    · have hf := Bank.find?_first _ s.slotHolds k ((s.slotHolds_iff _).2 hk) fun j hj =>
        State.slotHolds_eq_false (hfirst j hj)
      simp only [State.winner, hf]
      exact lineOf_eq_some.2 hl
    · have hf := Bank.find?_none _ s.slotHolds fun j => State.slotHolds_eq_false (hown j)
      have hg := Bank.find?_first _ (fun t => s.slotHolds t && decide (lineOf t.target ≠ some cur)) k
        ((s.anySlot_iff cur _).2 hk) fun j hj => hany j (hfirst j hj)
      simp only [State.winner, hf, hg]
      exact lineOf_eq_some.2 hl
    · have hf := Bank.find?_none _ s.slotHolds fun j => State.slotHolds_eq_false (hown j)
      have hg := Bank.find?_none _ (fun t => s.slotHolds t && decide (lineOf t.target ≠ some cur)) fun j =>
        hany j (hnone j)
      simp only [State.winner, hf, hg]
  · rw [State.slotHolds_iff, slotTrue_iff]
  · exact ⟨s.sourceTrue_iff 1 i, s.sourceTrue_iff 2 i, s.sourceTrue_iff 3 i, s.sourceTrue_iff 4 i,
      s.sourceTrue_iff 5 i, rfl, rfl, rfl, rfl, rfl⟩

/-! ### Entry postings -/

theorem State.placePosting_eq (l : LineId) (r : PostRec) (s : State) : (s.placePosting l r).2 = { s with
    seq := (s.placePosting l r).2.seq, queue := (s.placePosting l r).2.queue, link := (s.placePosting l r).2.link } := by
  have hins : ∀ o p, s.insert o p = { s with queue := (s.insert o p).queue, link := (s.insert o p).link } := by
    intro o p
    unfold State.insert State.holdAfterAppend
    repeat' split
    all_goals rfl
  unfold State.placePosting
  repeat' split
  · rfl
  · rfl
  · dsimp only
    rw [hins]
  · rfl

theorem State.placePostings_cons (l : LineId) (r : PostRec) (rs : List PostRec) (s : State) :
    s.placePostings l (r :: rs) =
      (if (s.placePosting l r).1 = true then
        (((s.placePosting l r).2.placePostings l rs).1.1 + 1, ((s.placePosting l r).2.placePostings l rs).1.2)
      else (((s.placePosting l r).2.placePostings l rs).1.1, ((s.placePosting l r).2.placePostings l rs).1.2 + 1),
      ((s.placePosting l r).2.placePostings l rs).2) := rfl

theorem State.placePostings_eq (l : LineId) (rs : List PostRec) (s : State) : (s.placePostings l rs).2 = { s with
    seq := (s.placePostings l rs).2.seq, queue := (s.placePostings l rs).2.queue
    link := (s.placePostings l rs).2.link } := by
  induction rs generalizing s with
  | nil => rfl
  | cons r rs ih =>
    have hone := s.placePosting_eq l r
    have hrest := ih (s.placePosting l r).2
    rw [State.placePostings_cons]
    dsimp only
    generalize (State.placePostings l rs (s.placePosting l r).2).2 = u at hrest ⊢
    generalize (s.placePosting l r).2 = t at hone hrest
    rw [hone] at hrest
    exact hrest

/-- A posting that is not placed raises the drop counter, one that is leaves it (R149). -/
theorem State.placePosting_drops (l : LineId) (r : PostRec) (s : State) : (s.placePosting l r).2.seq.drops =
    if (s.placePosting l r).1 = true then s.seq.drops else min (s.seq.drops + 1) 255 := by
  have hdrop : (s.dropPosting l).seq.drops = min (s.seq.drops + 1) 255 := rfl
  unfold State.placePosting
  repeat' split
  all_goals simp_all

/-- The entry postings of a state are placed or dropped, and the drops are counted (R42, R149). -/
theorem State.placePostings_counts (l : LineId) (rs : List PostRec) (s : State) :
    (s.placePostings l rs).1.1 + (s.placePostings l rs).1.2 = rs.length
    ∧ (s.placePostings l rs).2.seq.drops =
      if (s.placePostings l rs).1.2 = 0 then s.seq.drops else min (s.seq.drops + (s.placePostings l rs).1.2) 255 := by
  induction rs generalizing s with
  | nil => exact ⟨rfl, rfl⟩
  | cons r rs ih =>
    obtain ⟨hn, hd⟩ := ih (s.placePosting l r).2
    have hr := s.placePosting_drops l r
    rw [State.placePostings_cons, List.length_cons]
    cases hp : (s.placePosting l r).1
    · rw [hp] at hr
      simp only [Bool.false_eq_true, if_false] at hr ⊢
      refine ⟨by omega, ?_⟩
      rw [hd, hr]
      split <;> simp <;> omega
    · rw [hp] at hr
      simp only [if_true] at hr ⊢
      refine ⟨by omega, ?_⟩
      rw [hd, hr]

theorem StateRec.entryPostings_length (r : StateRec) : r.entryPostings.length = min r.count.toNat 4 := by
  rw [StateRec.entryPostings, List.length_take, Bank.data_length]

/-- A line state is entered: its own part, its postings and TRANSITION, in the statement's terms (R148). -/
theorem State.enterLine_spec (l : LineId) (cause : EntryCause) (s : State) :
    (s.enterLine l cause).1.1 + (s.enterLine l cause).1.2 = min (s.seq.table.get l).count.toNat 4
    ∧ (s.enterLine l cause).2.seq = { s.seq.enter l cause with
        drops := if (s.enterLine l cause).1.2 = 0 then s.seq.drops
          else min (s.seq.drops + (s.enterLine l cause).1.2) 255 }
    ∧ (s.enterLine l cause).2 = { s with
        seq := (s.enterLine l cause).2.seq, queue := (s.enterLine l cause).2.queue
        link := (s.enterLine l cause).2.link } := by
  obtain ⟨hn, hd⟩ := State.placePostings_counts l (s.seq.table.get l).entryPostings
    { s with seq := s.seq.enter l cause }
  refine ⟨hn.trans (StateRec.entryPostings_length _), ?_, ?_⟩
  · rw [State.enterLine_seq]
    exact congrArg (fun d => { s.seq.enter l cause with drops := d }) hd
  · have he := State.placePostings_eq l (s.seq.table.get l).entryPostings { s with seq := s.seq.enter l cause }
    show State.offer _ (State.placePostings _ _ _).2 = _
    rw [he]
    rfl

theorem PostingQueue.holdsKey_iff_exists (q : PostingQueue) (p : Posting) :
    q.holdsKey p = true ↔ ∃ e ∈ q.entries, e.key = p.key := by
  simp [PostingQueue.holdsKey]

/-- A posting that passes its checks, by what the queue and the latch of its channel make of it (R42, R149). -/
theorem State.placePosting_of_ok {l : LineId} {r : PostRec} {s : State} {p : Posting}
    (h : s.checkEntryPosting r = .ok p) : s.placePosting l r =
      if s.latched p.channel = true then (false, s.dropPosting l)
      else if ∃ e ∈ s.queue.entries, e.key = p.key then
        (true, { s with queue := { s.queue with entries := afterPosting .sequence s.queue.entries p } })
      else if s.queue.entries.length < 32 then
        (true, State.holdAfterAppend
          { s with queue := { s.queue with entries := s.queue.entries ++ [p.entry .sequence] } })
      else (false, s.dropPosting l) := by
  simp only [State.placePosting, h]
  refine if_congr Iff.rfl rfl ?_
  by_cases hk : s.queue.holdsKey p = true
  · have hex := (PostingQueue.holdsKey_iff_exists _ _).1 hk
    have hany : (s.queue.entries.any fun e => decide (e.key = p.key)) = true := hk
    rw [if_pos hex, hk]
    simp only [Bool.true_or, if_true, State.insert, hk, afterPosting, hany]
    rfl
  · have hex := mt (PostingQueue.holdsKey_iff_exists _ _).2 hk
    have hk' : s.queue.holdsKey p = false := by simpa using hk
    rw [if_neg hex, hk', State.insert_of_not_held hk']
    simp only [Bool.false_or, decide_eq_true_eq]
    rfl

/-- The HOLD test after an append, as the statements say it (R30). -/
theorem State.holdAfterAppend_eq (s : State) : s.holdAfterAppend = { s with
    queue := { s.queue with hold := s.queue.hold || decide (s.queue.holdAt ≤ s.queue.entries.length) }
    link := if s.queue.hold = false ∧ s.queue.holdAt ≤ s.queue.entries.length then s.link.offer (.flow true)
      else s.link } := by
  unfold State.holdAfterAppend
  by_cases h : s.queue.hold = false ∧ s.queue.holdAt ≤ s.queue.entries.length
  · rw [if_pos h, if_pos h, h.1, decide_eq_true h.2]
    rfl
  · have he : (s.queue.hold || decide (s.queue.holdAt ≤ s.queue.entries.length)) = s.queue.hold := by
      cases hh : s.queue.hold <;> simp_all
    rw [if_neg h, if_neg h, he]

/-! ### Entries outside a boundary -/

/-- The drive state of a used channel in RUN whose latch is clear (R64). -/
theorem State.driveState_run {s : State} {c : ChanId} (hm : s.ctl.mode = .run) (hu : (s.chans.get c).mode ≠ .unused)
    (hl : (s.trips.get c).latch = false) :
    s.driveState c = if s.seq.gate.getLsbD c.val = true then commandedState (s.chans.get c).act else .blocked := by
  have hact : (s.chans.get c).act.driveState = commandedState (s.chans.get c).act := by
    unfold ActiveSet.driveState commandedState
    cases (s.chans.get c).act.drive <;> cases (s.chans.get c).act.ramp <;> rfl
  simp [State.driveState, (s.used_iff c).2 hu, hm, State.latched, hl, State.admits, hact]

/-- A change of gate mask settles the channels whose admission changes, and those alone (R70). -/
theorem State.settleGate_outs {s t : State} (c : ChanId) (hout : t.outs = s.outs) :
    (s.admits c = t.admits c → (State.settleGate s t).outs.get c = s.outs.get c)
    ∧ (s.admits c ≠ t.admits c → Shows (State.settleGate s t) c (s.outs.get c) ((State.settleGate s t).outs.get c)) := by
  constructor
  · intro h
    simp [State.settleGate, State.settleOn, h, hout]
  · intro h
    have hs := State.settleOn_shows (fun c => decide (s.admits c ≠ t.admits c)) t c (by simpa using h)
    rwa [hout] at hs

theorem State.enterOutside_eq (l : LineId) (cause : EntryCause) (s : State) : s.enterOutside l cause =
    ((s.enterLine l cause).1, State.settleGate s (s.enterLine l cause).2) := rfl

theorem State.enterLine_outs' (l : LineId) (cause : EntryCause) (s : State) :
    (s.enterLine l cause).2.outs = s.outs := by simp

/-- Settles O18, part by part: the entry, the list of postings, one posting, and the entry outside a boundary. -/
theorem enteringLineState : Obligations.EnteringLineState := by
  refine ⟨?_, fun l s => ⟨rfl, ?_⟩, ?_, ?_⟩
  · rintro l cause s r rfl n m t p he rfl
    obtain ⟨hn, hseq, hkept⟩ := s.enterLine_spec l cause
    obtain ⟨hha, hra⟩ := s.enterLine_thresholds l cause
    have hq : State.enterLine l cause s
        = ((State.placePostings l (s.seq.table.get l).entryPostings { s with seq := s.seq.enter l cause }).1,
          State.offer (.transition s.seq.current l cause s.tb.bnum)
            (State.placePostings l (s.seq.table.get l).entryPostings { s with seq := s.seq.enter l cause }).2) := rfl
    rw [he] at hn hseq hkept hha hra
    refine ⟨hn, ⟨_, ?_, (congrArg Prod.snd (he.symm.trans hq))⟩, hseq, hkept, hha, hra⟩
    exact Prod.ext (congrArg Prod.fst (he.symm.trans hq)).symm rfl
  · rintro r rs placed n m u v hone hrest
    rw [State.placePostings_cons, hone]
    dsimp only
    rw [hrest]
    cases placed <;> rfl
  · rintro l r s p d dropped hok rfl rfl
    rw [State.placePosting_of_ok hok, State.holdAfterAppend_eq]
    simp only [List.length_append, List.length_singleton]
    rfl
  · intro l cause s u n he hm
    rw [State.enterOutside_eq] at he
    cases he
    obtain ⟨_, hseq, hkept⟩ := s.enterLine_spec l cause
    have hgate : (s.enterLine l cause).2.seq.gate = (s.seq.table.get l).gate := by rw [hseq]; rfl
    refine ⟨⟨_, rfl, rfl⟩, fun c => ?_⟩
    obtain ⟨hsame, hdiff⟩ := State.settleGate_outs (s := s) (t := (s.enterLine l cause).2) c (by simp)
    have hadm : (s.enterLine l cause).2.admits c = (s.seq.table.get l).gate.getLsbD c.val := by
      rw [State.admits, hgate]
    rw [hadm] at hsame hdiff
    refine ⟨hsame, hdiff, fun hu hl => ?_⟩
    have hdrive : (State.settleGate s (s.enterLine l cause).2).driveState c =
        if (s.seq.table.get l).gate.getLsbD c.val = true then commandedState (s.chans.get c).act else .blocked := by
      rw [State.driveState_run (by simpa using hm) (by simpa using hu) (by simpa using hl)]
      simp [hgate]
    refine ⟨fun hbefore hafter => ?_, fun hbefore hafter => ?_⟩
    · rw [hafter] at hdrive
      have hshow := hdiff (by rw [State.admits, hbefore, hafter]; decide)
      exact ⟨hdrive, hshow.inactive_of_quiet (by simp [hm]) (Or.inr (Or.inr hdrive))⟩
    · rw [hafter] at hdrive
      exact hdrive

end Sys2Proof.Machine
end

section
/-! SUPPORT. The evaluation of a boundary against the state that the statements evaluate: entry postings are placed
alike in both. -/

namespace Sys2Proof.Machine

/-! ### Postings placed alike -/

/-- Two states in which entry postings are placed alike. -/
structure PlaceAlike (s t : State) : Prop where
  queue : s.queue = t.queue
  drops : s.seq.drops = t.seq.drops
  mode : ∀ c, (s.chans.get c).mode = (t.chans.get c).mode
  latched : ∀ c, s.latched c = t.latched c
  link : SameKinds [2, 6] s.link t.link

theorem State.checkEntryPosting_congr {s t : State} (h : ∀ c, (s.chans.get c).mode = (t.chans.get c).mode)
    (r : PostRec) : s.checkEntryPosting r = t.checkEntryPosting r := by
  unfold State.checkEntryPosting State.used Channel.used
  simp only [h]

theorem PlaceAlike.dropPosting {s t : State} (h : PlaceAlike s t) (l : LineId) :
    PlaceAlike (s.dropPosting l) (t.dropPosting l) where
  queue := h.queue
  drops := congrArg (fun d => min (d + 1) 255) h.drops
  mode := h.mode
  latched := h.latched
  link := by
    unfold State.dropPosting State.offer
    rw [h.drops]
    exact h.link.offer (o := .seqDrop l (min (t.seq.drops + 1) 255)) (by simp [Occurrence.kind])

theorem PlaceAlike.insert {s t : State} (h : PlaceAlike s t) (o : Origin) (p : Posting) :
    PlaceAlike (s.insert o p) (t.insert o p) := by
  have hq := h.queue
  by_cases hk : t.queue.holdsKey p = true
  · have hk' : s.queue.holdsKey p = true := by rw [hq]; exact hk
    unfold State.insert
    rw [if_pos hk, if_pos hk']
    exact ⟨by rw [hq], h.drops, h.mode, h.latched, h.link⟩
  · have hk' : ¬s.queue.holdsKey p = true := by rw [hq]; exact hk
    unfold State.insert
    rw [if_neg hk, if_neg hk', State.holdAfterAppend_eq, State.holdAfterAppend_eq]
    refine ⟨by rw [hq], h.drops, h.mode, h.latched, ?_⟩
    dsimp only
    rw [hq]
    split
    · exact h.link.offer (by simp [Occurrence.kind])
    · exact h.link

/-- One entry posting is placed or dropped alike, and the states stay alike (R42). -/
theorem PlaceAlike.placePosting {s t : State} (h : PlaceAlike s t) (l : LineId) (r : PostRec) :
    (s.placePosting l r).1 = (t.placePosting l r).1 ∧ PlaceAlike (s.placePosting l r).2 (t.placePosting l r).2 := by
  have hcheck := State.checkEntryPosting_congr h.mode r
  unfold State.placePosting
  rw [hcheck]
  cases t.checkEntryPosting r with
  | error e => exact ⟨rfl, h.dropPosting l⟩
  | ok p =>
    dsimp only
    rw [h.latched, h.queue, State.occupancy, State.occupancy, h.queue]
    split
    · exact ⟨rfl, h.dropPosting l⟩
    · split
      · exact ⟨rfl, h.insert _ p⟩
      · exact ⟨rfl, h.dropPosting l⟩

theorem PlaceAlike.placePostings {s t : State} (h : PlaceAlike s t) (l : LineId) (rs : List PostRec) :
    PlaceAlike (s.placePostings l rs).2 (t.placePostings l rs).2 := by
  induction rs generalizing s t with
  | nil => exact h
  | cons r rs ih => exact ih (h.placePosting l r).2

/-! ### The state that a boundary evaluates -/

theorem State.winner_congr {s t : State} (hcond : s.sampler = t.sampler) (hils : s.ils = t.ils)
    (hsenses : s.senses = t.senses) (hentries : s.queue.entries = t.queue.entries)
    (hseq : ∃ held, s.seq = { t.seq with held := held }) (cur : LineId) : s.winner cur = t.winner cur := by
  obtain ⟨held, hseq⟩ := hseq
  have hsrc : ∀ k i, s.sourceTrue k i = t.sourceTrue k i := by
    intro k i
    unfold State.sourceTrue SeqUnit.dwellReached
    rw [hcond, hils, hsenses, hentries, hseq]
  have hslot : s.slotHolds = t.slotHolds := by
    funext x
    rw [State.slotHolds, State.slotHolds, hsrc]
  unfold State.winner
  rw [hslot, hseq]

theorem flowOfRemoval_same {ks : List Nat} {l m : Link} (h : SameKinds ks l m) (q : PostingQueue) (es : List Entry) :
    SameKinds ks (flowOfRemoval q es l) (flowOfRemoval q es m) := by
  unfold flowOfRemoval
  split
  · exact h.offer (by simp [Occurrence.kind])
  · exact h

theorem SameKinds.trans {ks : List Nat} {l m n : Link} (h : SameKinds ks l m) (g : SameKinds ks m n) :
    SameKinds ks l n :=
  ⟨h.mask.trans g.mask, fun k hk => (h.kinds k hk).trans (g.kinds k hk)⟩

theorem OffersOnly.same {ks js : List Nat} {l m : Link} (h : OffersOnly ks l m) (hd : ∀ k ∈ js, k ∉ ks) :
    SameKinds js m l :=
  ⟨h.mask, fun k hk => h.kinds k (hd k hk)⟩

theorem SameKinds.mono {ks js : List Nat} {l m : Link} (h : SameKinds ks l m) (hs : js ⊆ ks) : SameKinds js l m :=
  ⟨h.mask, fun k hk => h.kinds k (hs hk)⟩

/-- The Posting Queue that a boundary evaluates (R26, R31). -/
theorem atEvaluation_queue (forced : Bool) (s : State) : (atEvaluation forced s).queue =
    if forced = true ∨ s.tb.rep = 0 then afterRemoval s.queue s.queue.counted else s.queue := by
  unfold atEvaluation
  split <;> rfl

theorem atEvaluation_link (forced : Bool) (s : State) : (atEvaluation forced s).link =
    if forced = true ∨ s.tb.rep = 0 then flowOfRemoval s.queue s.queue.counted s.link else s.link := by
  unfold atEvaluation
  split <;> rfl

theorem atEvaluation_seq (forced : Bool) (s : State) : (atEvaluation forced s).seq = { s.seq with
    dwell := if (forced = true ∨ s.tb.rep = 0) ∧ s.seq.unit ≠ .disabled then min (s.seq.dwell + 1) 65535
      else s.seq.dwell } := by
  unfold atEvaluation
  split
  · next hr =>
    by_cases hd : s.seq.unit = .disabled <;> simp [hd, hr]
  · next hr => simp [hr]

theorem atEvaluation_kept (forced : Bool) (s : State) : (atEvaluation forced s).sampler = s.sampler
    ∧ (atEvaluation forced s).ils = s.ils ∧ (atEvaluation forced s).senses = s.senses
    ∧ (atEvaluation forced s).chans = s.chans := by
  unfold atEvaluation
  split <;> exact ⟨rfl, rfl, rfl, rfl⟩

theorem atEvaluation_trip (forced : Bool) (s : State) (c : ChanId) : (atEvaluation forced s).trips.get c =
    if (forced = true ∨ s.tb.rep = 0) ∧ autoEligible s c then { latch := false, cause := 0 } else s.trips.get c := by
  unfold atEvaluation
  split
  · next hr => simp [hr]
  · next hr => simp [hr]

/-- What a boundary evaluates, against the statements' state (log 23). -/
structure EvaluatesAlike (w p : State) : Prop where
  queue : w.queue = p.queue
  seq : ∃ held, w.seq = { p.seq with held := held }
  mode : ∀ c, (w.chans.get c).mode = (p.chans.get c).mode
  latched : ∀ c, w.latched c = p.latched c
  sampler : w.sampler = p.sampler
  ils : w.ils = p.ils
  senses : w.senses = p.senses
  link : SameKinds [2, 3, 6] w.link p.link

/-- The notices of kinds 2, 3 and 6 that a boundary evaluates with. -/
theorem State.beforeEvaluation_link (forced quiet : Bool) (s : State) :
    SameKinds [2, 3, 6] (s.beforeEvaluation forced quiet).link (atEvaluation forced s).link := by
  have htb : SameKinds [2, 3, 6] (s.resumeOuts.timebaseWork forced quiet).link s.link :=
    (State.timebaseWork_offers forced quiet s.resumeOuts).same (by simp)
  have hacc : ∀ t : State, SameKinds [2, 3, 6] (State.accumulate s t).link t.link := fun t =>
    (State.accumulate_offers s t).same (by simp)
  have hramps : (s.beforeEvaluation forced quiet).link = (s.afterRelease forced quiet).link := by
    rw [State.beforeEvaluation_eq, State.afterRamps]
    split <;> simp
  rw [hramps, State.afterRelease, atEvaluation_link]
  by_cases hr : s.tb.releases forced = true
  · rw [if_pos hr, if_pos ((s.tb.releases_iff forced).1 hr)]
    have hcount : SameKinds [2, 3, 6] (s.resumeOuts.timebaseWork forced quiet).countdown.link
        (flowOfRemoval s.queue s.queue.counted s.link) := by
      rw [State.countdown_eq, State.timebaseWork_queue, State.resumeOuts_queue]
      exact flowOfRemoval_same htb _ _
    simpa using (hacc _).trans hcount
  · rw [if_neg hr, if_neg fun g => hr ((s.tb.releases_iff forced).2 g)]
    exact (hacc _).trans htb

theorem State.atWinner_alike (forced quiet : Bool) (s : State) :
    EvaluatesAlike (s.atWinner forced quiet) (atEvaluation forced s) := by
  obtain ⟨hsampler, hils, hsenses, hchans⟩ := atEvaluation_kept forced s
  obtain ⟨_, ksenses, ksampler, kils, _⟩ := s.beforeEvaluation_kept forced quiet
  have hr := s.tb.releases_iff forced
  refine ⟨?_, ⟨(s.beforeEvaluation forced quiet).seq.held, ?_⟩, fun c => ?_, fun c => ?_, ksampler.trans hsampler.symm, kils.trans hils.symm,
    ksenses.trans hsenses.symm, s.beforeEvaluation_link forced quiet⟩
  · rw [atEvaluation_queue]
    exact (s.beforeEvaluation_queue forced quiet).trans (if_congr hr rfl rfl)
  · rw [State.atWinner_seq, atEvaluation_seq]
  · rw [hchans]
    exact s.beforeEvaluation_mode forced quiet c
  · refine congrArg Trip.latch ?_
    rw [atEvaluation_trip]
    exact (s.beforeEvaluation_chan forced quiet c).2.trans (if_congr (and_congr_left fun _ => hr) rfl rfl)

/-- The evaluation of a boundary wins what the statements' state wins (R146). -/
theorem EvaluatesAlike.winner {w p : State} (h : EvaluatesAlike w p) (cur : LineId) : w.winner cur = p.winner cur :=
  State.winner_congr h.sampler h.ils h.senses (congrArg PostingQueue.entries h.queue) h.seq cur

theorem EvaluatesAlike.slotEntry {w p : State} (h : EvaluatesAlike w p) : w.slotEntry = p.slotEntry := by
  obtain ⟨held, hseq⟩ := h.seq
  have hunit : w.seq.unit = p.seq.unit := by rw [hseq]
  have hcur : w.seq.current = p.seq.current := by rw [hseq]
  have hwin := h.winner
  unfold State.slotEntry
  rw [hunit, hcur]
  split
  · cases p.seq.current with
    | none => rfl
    | some cur => exact hwin cur
  · rfl

/-- An evaluation that enters no line state turns the events of a RUNNING unit and does nothing else (R146). -/
theorem State.evaluate_of_none {s : State} (h : s.slotEntry = none) :
    s.evaluate = { s with seq := if s.seq.unit = .running then s.seq.turnEvents else s.seq } := by
  unfold State.slotEntry at h
  unfold State.evaluate
  split
  · next hrun =>
    rw [if_pos hrun] at h
    cases hcur : s.seq.current with
    | none => rfl
    | some cur =>
      rw [hcur] at h
      have hwin : s.winner cur = none := h
      simp only [hwin]
  · rfl

/-- An evaluation that enters a line state enters it with cause SLOT, then turns the events (R146). -/
theorem State.evaluate_of_some {s : State} {l : LineId} (h : s.slotEntry = some l) :
    s.evaluate = { (s.enterLine l .slot).2 with seq := (s.enterLine l .slot).2.seq.turnEvents } := by
  unfold State.slotEntry at h
  unfold State.evaluate
  split
  · next hrun =>
    rw [if_pos hrun] at h
    cases hcur : s.seq.current with
    | none =>
      rw [hcur] at h
      cases h
    | some cur =>
      rw [hcur] at h
      have hwin : s.winner cur = some l := h
      simp only [hwin]
  · next hrun =>
    rw [if_neg hrun] at h
    cases h

theorem State.enterLine_eq (l : LineId) (cause : EntryCause) (s : State) : (s.enterLine l cause).2 =
    State.offer (.transition s.seq.current l cause s.tb.bnum)
      (State.placePostings l (s.seq.table.get l).entryPostings { s with seq := s.seq.enter l cause }).2 := rfl

/-- An entry by the evaluation of a boundary, against the entry postings that the statements place (R148). -/
theorem EvaluatesAlike.enterLine {w p : State} (h : EvaluatesAlike w p) (l : LineId) :
    let e := (w.enterLine l .slot).2
    let v := (State.placeEntry l { p with seq := p.seq.inLine l }).2
    e.queue = v.queue ∧ e.seq.drops = v.seq.drops ∧ SameKinds [2, 6] e.link v.link
      ∧ e.link.ofKind 3 = (p.link.offer (.transition p.seq.current l .slot w.tb.bnum)).ofKind 3 := by
  obtain ⟨held, hseq⟩ := h.seq
  have htable : w.seq.table = p.seq.table := by rw [hseq]
  have hcur : w.seq.current = p.seq.current := by rw [hseq]
  have hdrops : w.seq.drops = p.seq.drops := by rw [hseq]
  have hsix := h.link.mono (js := [2, 6]) (by simp)
  have hplace : PlaceAlike { w with seq := w.seq.enter l .slot } { p with seq := p.seq.inLine l } :=
    ⟨h.queue, hdrops, h.mode, h.latched, hsix⟩
  have halike := hplace.placePostings l (w.seq.table.get l).entryPostings
  have hrecord : (State.placeEntry l { p with seq := p.seq.inLine l }).2
      = (State.placePostings l (w.seq.table.get l).entryPostings { p with seq := p.seq.inLine l }).2 := by
    rw [htable]
    rfl
  have hthree : SameKinds [3] (State.placePostings l (w.seq.table.get l).entryPostings
      { w with seq := w.seq.enter l .slot }).2.link p.link :=
    ((State.placePostings_offers l _ { w with seq := w.seq.enter l .slot }).same (by simp)).trans
      (h.link.mono (by simp))
  intro e v
  refine ⟨?_, ?_, ?_, ?_⟩
  · exact halike.queue.trans (congrArg State.queue hrecord.symm)
  · exact halike.drops.trans (congrArg (fun t => t.seq.drops) hrecord.symm)
  · have hoffer := (OffersOnly.refl (State.placePostings l (w.seq.table.get l).entryPostings
      { w with seq := w.seq.enter l .slot }).2.link).offer (ks := [3])
      (o := .transition w.seq.current l .slot w.tb.bnum) (by simp [Occurrence.kind])
    have hlink := (hoffer.same (js := [2, 6]) (by simp)).trans halike.link
    rw [← hrecord] at hlink
    exact hlink
  · rw [← hcur]
    exact (hthree.offer (by simp [Occurrence.kind])).kinds 3 (by simp)

theorem State.evaluated_link (forced quiet : Bool) (s : State) (k : Nat) :
    (State.runBoundary forced quiet s).link.ofKind k = (s.evaluated forced quiet).link.ofKind k :=
  (State.runBoundary_link forced quiet s).kinds k (by simp)

theorem State.runBoundary_queue (forced quiet : Bool) (s : State) :
    (State.runBoundary forced quiet s).queue = (s.evaluated forced quiet).queue := by
  rw [State.runBoundary_eq]
  simp

/-- Settles O13: the boundary evaluates what the statement's state evaluates. -/
theorem boundaryCountsDownQueue : Obligations.BoundaryCountsDownQueue := by
  rintro forced quiet s u p es rfl rfl rfl
  have halike := s.atWinner_alike forced quiet
  refine ⟨atEvaluation_queue forced s, atEvaluation_link forced s, fun h => ?_, ?_⟩
  · unfold State.slotEntry
    rw [if_neg]
    rw [atEvaluation_seq]
    exact h
  · rw [State.runBoundary_queue, State.evaluated_link, State.evaluated_eq]
    cases hp : (atEvaluation forced s).slotEntry with
    | none =>
      rw [State.evaluate_of_none (halike.slotEntry.trans hp)]
      exact ⟨halike.queue, halike.link.kinds 2 (by simp)⟩
    | some l =>
      rintro n v hv
      rw [State.evaluate_of_some (halike.slotEntry.trans hp)]
      obtain ⟨hqueue, _, hlink, _⟩ := halike.enterLine l
      rw [hv] at hqueue hlink
      exact ⟨hqueue, hlink.kinds 2 (by simp)⟩

/-- A unit that is not RUNNING holds no event of a boundary (R143). -/
theorem State.beforeEvaluation_held_of_not_running (forced quiet : Bool) (s : State) (h : s.seq.unit ≠ .running) :
    (s.beforeEvaluation forced quiet).seq.held = s.seq.held := by
  have hold : ∀ r a, s.seq.hold r a = s.seq := fun r a => if_neg h
  rw [State.beforeEvaluation_seq, hold, hold]

/-- The Sequence Unit after a boundary, for a unit that is not RUNNING (R145). -/
theorem State.runBoundary_seq_of_not_running (forced quiet : Bool) (s : State) (h : s.seq.unit ≠ .running) :
    (State.runBoundary forced quiet s).seq = { s.seq with
      dwell := if (forced = true ∨ s.tb.rep = 0) ∧ s.seq.unit ≠ .disabled then min (s.seq.dwell + 1) 65535
        else s.seq.dwell } := by
  have hw := s.atWinner_seq forced quiet
  have hunit : (s.atWinner forced quiet).seq.unit ≠ .running := by rw [hw]; exact h
  rw [State.runBoundary_seq, State.evaluated_eq, State.evaluate, if_neg hunit, hw,
    State.beforeEvaluation_held_of_not_running forced quiet s h]

/-- Settles O16. -/
theorem boundaryEvaluatesSequence : Obligations.BoundaryEvaluatesSequence := by
  rintro forced quiet s u d rfl hd
  refine ⟨fun h => ?_, fun h => ?_, fun h => ?_⟩
  · rw [State.runBoundary_seq_of_not_running forced quiet s (by simp [h]), if_neg (by simp [h])]
  · rw [State.runBoundary_seq_of_not_running forced quiet s (by simp [h]), hd]
    simp [h]
  · have hw := s.atWinner_seq forced quiet
    have hdwell : (if (forced = true ∨ s.tb.rep = 0) ∧ s.seq.unit ≠ .disabled then min (s.seq.dwell + 1) 65535
        else s.seq.dwell) = d := by
      rw [hd]
      simp [h]
    rw [hdwell] at hw
    have hrun : (s.atWinner forced quiet).seq.unit = .running := by rw [hw]; exact h
    obtain ⟨_, hheld, hunit, hhome, htable, hany⟩ := State.evaluate_events _ hrun
    rw [← State.evaluated_eq, ← State.runBoundary_seq] at hheld hunit hhome htable hany
    rw [hw] at hhome htable hany
    have hlatch := State.runBoundary_latches forced quiet s h
    refine ⟨hunit, hhome, htable, hany, hheld, ?_, ?_, fun c => ?_, ?_⟩
    · rw [hlatch]
    · rw [hlatch]
    · rw [hlatch]
      dsimp only
      rw [BitVec.getLsbD_or, chanMask_getLsbD]
      congr 1
      rw [Bool.eq_iff_iff, State.accCrosses, Bool.and_eq_true, State.adds, DriveState.drives_iff, decide_eq_true_eq]
    · rintro cur p hcur rfl
      have halike := s.atWinner_alike forced quiet
      have hp := atEvaluation_seq forced s
      rw [hdwell] at hp
      have hentry : (atEvaluation forced s).slotEntry = (atEvaluation forced s).winner cur := by
        unfold State.slotEntry
        rw [hp]
        simp [h, hcur]
      refine ⟨by rw [hp], ?_⟩
      have hoffers : ∀ k, k ≠ 2 → (atEvaluation forced s).link.ofKind k = s.link.ofKind k := by
        intro k hk
        rw [atEvaluation_link]
        split
        · exact (OffersOnly.flow (flowOfRemoval_flow _ _ _)).kinds k (by simpa using hk)
        · rfl
      rw [State.runBoundary_seq, State.runBoundary_queue, State.evaluated_link, State.evaluated_link,
        State.evaluated_eq]
      cases hwin : (atEvaluation forced s).winner cur with
      | none =>
        rw [State.evaluate_of_none (halike.slotEntry.trans (hentry.trans hwin)), if_pos hrun]
        dsimp only [SeqUnit.turnEvents]
        rw [hw]
        exact ⟨hcur, rfl, rfl, rfl, rfl, halike.queue, (halike.link.kinds 3 (by simp)).trans (hoffers 3 (by simp)),
          (halike.link.kinds 6 (by simp)).trans (hoffers 6 (by simp))⟩
      | some l =>
        rw [State.evaluate_of_some (halike.slotEntry.trans (hentry.trans hwin))]
        obtain ⟨hqueue, hdrops, hlink, hthree⟩ := halike.enterLine l
        have hseq := State.enterLine_seq l .slot (s.atWinner forced quiet)
        dsimp only [SeqUnit.turnEvents]
        refine ⟨by rw [hseq]; rfl, by rw [hseq]; rfl, by rw [hseq, hw]; rfl, by rw [hseq, hw]; rfl, ?_⟩
        rintro n v hv
        rw [hv] at hqueue hdrops hlink
        refine ⟨hqueue, hdrops, hlink.kinds 6 (by simp), hthree.trans ?_⟩
        have hbnum : (s.atWinner forced quiet).tb.bnum = (State.runBoundary forced quiet s).tb.bnum := by
          rw [State.runBoundary_tb, ← State.beforeEvaluation_tb forced quiet]
          rfl
        have hthis : SameKinds [3] (atEvaluation forced s).link s.link := by
          refine ⟨?_, fun k hk => hoffers k (by simp at hk; omega)⟩
          rw [atEvaluation_link]
          split
          · exact (OffersOnly.flow (flowOfRemoval_flow _ _ _)).mask
          · rfl
        rw [hbnum, hp, hcur]
        exact (hthis.offer (by simp [Occurrence.kind])).kinds 3 (by simp)

end Sys2Proof.Machine
end

section
/-! SUPPORT. The decoder's refusals, the two queries, CLEAR (TRIPS), and SEQ_DISARM, SEQ_HOME and TRIGGER. -/

namespace Sys2Proof.Machine

/-! ### The decoder's order -/

/-- Settles O28: each case is a branch of `State.judge`, read off the kind's row. -/
theorem decoderRefusesInOrder : Obligations.DecoderRefusesInOrder := by
  intro c f s hc hr
  obtain ⟨t, he, ht⟩ := exec_taken c f s hc hr
  refine ⟨t, he, fun hrow => ?_, fun r hrow => ?_⟩
  · have hk := (rowOf_eq_none f.kind).1 hrow
    exact ht.of_answer (by rw [State.judge, hk]; rfl)
  · obtain ⟨k, hk⟩ : ∃ k, ReqKind.ofCode f.kind = some k := by
      cases h : ReqKind.ofCode f.kind with
      | none =>
        rw [(rowOf_eq_none f.kind).2 h] at hrow
        cases hrow
      | some k => exact ⟨k, rfl⟩
    rw [ReqKind.code_of_ofCode f.kind k hk] at hrow
    obtain ⟨hlen, hmode, horder, hlock⟩ := k.checks_of_row r hrow
    have hno : ∀ {b : Bool} {p : Prop}, (b = true ↔ p) → ¬p → b = false := fun h hp => by
      simpa using mt h.1 hp
    refine ⟨fun h => ?_, fun h hm => ?_, fun h hm ho => ?_, fun h hm ho hl => ?_⟩
    · exact ht.of_answer (by simp [State.judge, hk, hno (hlen _) h, Answer.refuse])
    · exact ht.of_answer (by simp [State.judge, hk, (hlen _).2 h, hno (hmode _) hm, Answer.refuse])
    · exact ht.of_answer (by
        simp [State.judge, hk, (hlen _).2 h, (hmode _).2 hm, hno (horder _) ho, Answer.refuse])
    · exact ht.of_answer (by
        simp [State.judge, hk, (hlen _).2 h, (hmode _).2 hm, (horder _).2 ho, (hlock _).2 hl, Answer.refuse])

/-! ### QUERY_CHANNEL and the projected set -/

theorem Level.bit_eq (l : Level) : l.bit = decide (l = .high) := by cases l <;> rfl

theorem rampBytes_eq (r : Option Ramp) : rampBytes r = match r with
    | some r => intHalf r.target ++ natHalf r.step
    | none => [0, 0, 0, 0] := by
  cases r <;> rfl

theorem Accum.reportedCount_eq (m : AccMode) (a : Accum) :
    a.reportedCount m = if m = .saturate then 0 else a.count := by
  cases m <;> rfl

theorem Accum.flags_eq (m : AccMode) (a : Accum) :
    a.flags m = flagsByte [a.sat, a.armed, decide (a.value = 0), decide (m ≠ .magnitude) && a.value.msb] := by
  have hneg : decide (a.value.toInt < 0) = a.value.msb := by
    rw [Bool.eq_iff_iff, decide_eq_true_eq, BitVec.msb_eq_toInt, decide_eq_true_eq]
  have hn : a.negFlag m = (decide (m ≠ .magnitude) && a.value.msb) := by
    cases m
    · exact hneg
    · exact hneg
    · exact decide_eq_false (Int.not_lt.2 (Int.natCast_nonneg _))
  rw [Accum.flags, hn]
  rfl

/-- The fields of a QUERY_CHANNEL reply in the statement's terms (R196). -/
theorem State.channelBytes_eq (s : State) (c : ChanId) (asked : Bool) (g : Channel) (hg : g = s.chans.get c) :
    s.channelBytes c asked =
      [natByte c.val, natByte g.mode.code, natByte (s.driveState c).code, natByte g.act.drive.code]
      ++ intHalf g.act.level ++ intHalf g.act.lo ++ intHalf g.act.hi
      ++ (match g.act.ramp with
          | some r => intHalf r.target ++ natHalf r.step
          | none => [0, 0, 0, 0])
      ++ [flagsByte [g.act.ramp.isSome, g.clamped, (s.trips.get c).latch, g.pendCfg.isSome,
          decide ((s.senses.get c).filtered = .high)],
        (s.trips.get c).cause.setWidth 8, natByte g.cfg.accMode.code]
      ++ wordBytes (s.accs.get c).value
      ++ [if g.cfg.accMode = .saturate then 0 else (s.accs.get c).count,
        flagsByte [(s.accs.get c).sat, (s.accs.get c).armed, decide ((s.accs.get c).value = 0),
          decide (g.cfg.accMode ≠ .magnitude) && (s.accs.get c).value.msb]]
      ++ s.projectedBytes c asked := by
  subst hg
  unfold State.channelBytes
  dsimp only
  rw [rampBytes_eq, Level.bit_eq, Accum.reportedCount_eq, Accum.flags_eq]

/-- QUERY_CHANNEL by its body (R56). -/
theorem State.takeQueryChannel_cases (b f : Byte) (s : State) :
    (16 ≤ b.toNat ∨ 1 < f.toNat → s.takeQueryChannel [b, f] = .refuse .badArg [] s)
    ∧ ∀ c : ChanId, b.toNat = c.val → f.toNat ≤ 1 →
      s.takeQueryChannel [b, f] = .ok (s.channelBytes c (decide (f = 1))) (s.clearClamped c) := by
  refine ⟨fun h => ?_, fun c hb hf => ?_⟩
  · unfold State.takeQueryChannel
    dsimp only
    split
    · rfl
    · next c hc =>
      have hb : b.toNat = c.val := chanOf_eq_some.1 hc
      have hf : 1 < f.toNat := h.resolve_left (by have := c.isLt; omega)
      exact if_pos hf
  · have hc : chanOf (byteAt [b, f] 0) = some c := chanOf_eq_some.2 hb
    simp only [State.takeQueryChannel, hc]
    rw [if_neg (Nat.not_lt.2 (show (byteAt [b, f] 1).toNat ≤ 1 from hf)), show byteAt [b, f] 1 = f from rfl,
      getLsbD_zero_of_le_one hf]

/-- Two lists that ascend by a key and hold the same records under each key are one. -/
theorem eq_of_sorted_of_filters {α : Type} {key : α → Nat} {l m : List α}
    (hl : l.Pairwise fun x y => key x ≤ key y) (hm : m.Pairwise fun x y => key x ≤ key y)
    (h : ∀ n, l.filter (fun x => decide (key x = n)) = m.filter fun x => decide (key x = n)) : l = m := by
  have hmem : ∀ {l m : List α}, (∀ n, l.filter (fun x => decide (key x = n)) = m.filter fun x => decide (key x = n)) →
      ∀ x ∈ l, x ∈ m := by
    intro l m h x hx
    have : x ∈ l.filter fun y => decide (key y = key x) := List.mem_filter.2 ⟨hx, by simp⟩
    rw [h] at this
    exact (List.mem_filter.1 this).1
  induction l generalizing m with
  | nil =>
    cases m with
    | nil => rfl
    | cons b m => exact absurd (hmem (fun n => (h n).symm) b (List.mem_cons_self ..)) (List.not_mem_nil)
  | cons a l ih =>
    cases m with
    | nil => exact absurd (hmem h a (List.mem_cons_self ..)) (List.not_mem_nil)
    | cons b m =>
      obtain ⟨hla, hl'⟩ := List.pairwise_cons.1 hl
      obtain ⟨hmb, hm'⟩ := List.pairwise_cons.1 hm
      have hba : key b ≤ key a := by
        rcases List.mem_cons.1 (hmem h a (List.mem_cons_self ..)) with e | e
        · rw [e]
        · exact hmb a e
      have hab : key a ≤ key b := by
        rcases List.mem_cons.1 (hmem (fun n => (h n).symm) b (List.mem_cons_self ..)) with e | e
        · rw [e]
        · exact hla b e
      have hkey : key b = key a := le_antisymm hba hab
      have hhead := h (key a)
      simp only [List.filter_cons, hkey, decide_true, if_true] at hhead
      obtain ⟨rfl, _⟩ := List.cons_eq_cons.1 hhead
      refine congrArg (a :: ·) (ih hl' hm' fun n => ?_)
      have hn := h n
      simp only [List.filter_cons] at hn
      split at hn
      · exact (List.cons_eq_cons.1 hn).2
      · exact hn

theorem insertByRemaining_perm (e : Entry) (l : List Entry) : (insertByRemaining e l).Perm (e :: l) := by
  induction l with
  | nil => exact .refl _
  | cons f l ih =>
    unfold insertByRemaining
    split
    · exact .refl _
    · exact (ih.cons f).trans (.swap e f l)

theorem insertByRemaining_sorted {e : Entry} {l : List Entry} (h : l.Pairwise fun x y => x.remaining ≤ y.remaining) :
    (insertByRemaining e l).Pairwise fun x y => x.remaining ≤ y.remaining := by
  induction l with
  | nil => simp [insertByRemaining]
  | cons f l ih =>
    obtain ⟨hf, hl⟩ := List.pairwise_cons.1 h
    unfold insertByRemaining
    split
    · next he =>
      refine List.pairwise_cons.2 ⟨fun x hx => ?_, h⟩
      rcases List.mem_cons.1 hx with rfl | hx
      · exact he
      · exact he.trans (hf x hx)
    · next he =>
      refine List.pairwise_cons.2 ⟨fun x hx => ?_, ih hl⟩
      rcases List.mem_cons.1 ((insertByRemaining_perm e l).mem_iff.1 hx) with rfl | hx
      · omega
      · exact hf x hx

theorem insertByRemaining_filter (e : Entry) (l : List Entry) (n : Nat) :
    (insertByRemaining e l).filter (fun x => decide (x.remaining = n))
      = (e :: l).filter fun x => decide (x.remaining = n) := by
  induction l with
  | nil => rfl
  | cons f l ih =>
    unfold insertByRemaining
    split
    · rfl
    · next he =>
      rw [List.filter_cons, ih]
      simp only [List.filter_cons, decide_eq_true_eq]
      have hne : ¬(e.remaining = n ∧ f.remaining = n) := by omega
      by_cases h1 : e.remaining = n <;> by_cases h2 : f.remaining = n <;> simp_all

/-- Sorting by remaining count ascends and keeps the queue's order where counts are equal (R37). -/
theorem sortByRemaining_spec (l : List Entry) :
    (sortByRemaining l).Pairwise (fun x y => x.remaining ≤ y.remaining)
    ∧ ∀ n, (sortByRemaining l).filter (fun x => decide (x.remaining = n))
      = l.filter fun x => decide (x.remaining = n) := by
  induction l with
  | nil => exact ⟨.nil, fun _ => rfl⟩
  | cons e l ih =>
    refine ⟨insertByRemaining_sorted ih.1, fun n => ?_⟩
    rw [sortByRemaining, insertByRemaining_filter, List.filter_cons, List.filter_cons, ih.2]

theorem ActiveSet.completed_eq (a : ActiveSet) : a.completed = match a.ramp with
    | some r => { a with level := r.target, ramp := none }
    | none => a := by
  unfold ActiveSet.completed
  cases a.ramp <;> rfl

theorem captureBytes_eq (x : Option Capture) : captureBytes x = match x with
    | some r => wordBytes r.bnum ++ [natByte r.frameIndex] ++ natHalf r.counter
        ++ [flagsByte [decide (r.dir = .down), decide (r.edge = .falling)]]
    | none => List.replicate 8 0 := by
  cases x <;> rfl

/-- Settles O33. -/
theorem queriesReportAndClear : Obligations.QueriesReportAndClear := by
  refine ⟨fun tag b f s hr => ?_, ?_, fun tag b s hr => ?_⟩
  · have hm := inModes_all (State.ready_mode hr)
    obtain ⟨t, he, ht⟩ := exec_take (k := .queryChannel) rfl hr rfl ⟨rfl, hm, rfl, rfl⟩ (c := .queryChannel tag [b, f])
    obtain ⟨hbad, hok⟩ := State.takeQueryChannel_cases b f s
    refine ⟨t, he, fun h => ht.of_answer (hbad h), ?_⟩
    rintro c g a m p hb hf rfl rfl rfl rfl
    refine ht.of_answer ((hok c hb hf).trans ?_)
    rw [State.channelBytes_eq s c _ _ rfl, natByte_of_toNat hb, State.projectedBytes]
    simp only [decide_eq_true_eq] <;> rfl
  · rintro s c es a hsorted hfilter rfl
    obtain ⟨hs, hf⟩ := sortByRemaining_spec (s.entriesOf c)
    have hes : es = sortByRemaining (s.entriesOf c) := by
      refine eq_of_sorted_of_filters (key := Entry.remaining) hsorted hs fun n => ?_
      rw [hfilter n, hf n, State.entriesOf, List.filter_filter]
      exact List.filter_congr fun e _ => by simp [Bool.and_comm]
    rw [State.projected, ← hes, ActiveSet.completed_eq] <;> rfl
  · have hm := inModes_all (State.ready_mode hr)
    obtain ⟨t, he, ht⟩ := exec_take (k := .queryCapture) rfl hr rfl ⟨rfl, hm, rfl, rfl⟩ (c := .queryCapture tag [b])
    refine ⟨t, he, fun h => ht.of_answer ?_, ?_⟩
    · have hc : chanOf (byteAt [b] 0) = none := chanOf_eq_none.2 h
      show s.takeQueryCapture [b] = _
      rw [State.takeQueryCapture, hc]
      rfl
    · rintro c x hb rfl
      have hc : chanOf (byteAt [b] 0) = some c := chanOf_eq_some.2 hb
      refine ht.of_answer ?_
      show s.takeQueryCapture [b] = _
      simp only [State.takeQueryCapture, hc, Level.bit_eq, captureBytes_eq] <;> rfl

/-! ### CLEAR (TRIPS) -/

/-- A channel whose latch has cleared outside CHECK is UNUSED, IDLE or BLOCKED (R64, R65). -/
theorem State.driveState_of_stopped {s : State} {c : ChanId} (hm : s.ctl.mode = .setup ∨ s.ctl.mode = .run)
    (hlatch : s.latched c = false) (hdrive : (s.chans.get c).act.drive = .off) :
    s.driveState c = .unused ∨ s.driveState c = .idle ∨ s.driveState c = .blocked := by
  unfold State.driveState ActiveSet.driveState
  rcases hm with hm | hm <;> simp only [hm, hlatch, hdrive, Bool.false_eq_true, if_false]
  · split <;> simp
  · split <;> [split; skip] <;> simp

theorem Out.loaded_zero (o : Out) (m : ChanMode) (p : Nat) : o.loaded m 0 p = { o with compare := 0, side := .none } := by
  simp [Out.loaded]

/-- The clearing of latches, channel by channel (R74, R112). -/
theorem State.clearLatches_outs (sel : ChanId → Bool) (s : State) (c : ChanId) : (s.clearLatches sel).outs.get c =
    if sel c = true then { s.outs.get c with compare := 0, side := .none } else s.outs.get c := by
  simp only [State.clearLatches, State.loadCompare, Bank.get_mapId]
  split
  · rw [Out.load_eq]
    exact Out.loaded_zero ..
  · rfl

theorem State.clearLatches_eq (sel : ChanId → Bool) (s : State) : s.clearLatches sel = { s with
    trips := s.trips.mapId fun c tr => if sel c = true then { latch := false, cause := 0 } else tr
    chans := s.chans.mapId fun c ch => if sel c = true then { ch with act := stoppedSet ch.act } else ch
    outs := (s.clearLatches sel).outs } := rfl

/-- The pins of a channel whose latch is cleared outside CHECK (R112). -/
theorem State.clearLatches_settled_pins {sel : ChanId → Bool} {s : State} {c : ChanId}
    (hm : s.ctl.mode = .setup ∨ s.ctl.mode = .run) (hsel : sel c = true) :
    let u := ((s.clearLatches sel).settleOn sel).outs.get c
    u.compare = 0 ∧ u.pinA = .inactive ∧ u.pinB = .inactive := by
  intro u
  have hshow := State.settleOn_shows sel (s.clearLatches sel) c hsel
  have hquiet : ((s.clearLatches sel).settleOn sel).driveState c = .unused
      ∨ ((s.clearLatches sel).settleOn sel).driveState c = .idle
      ∨ ((s.clearLatches sel).settleOn sel).driveState c = .blocked := by
    refine State.driveState_of_stopped (by simpa using hm) ?_ ?_
    · show (s.clearLatches sel).latched c = false
      rw [State.clearLatches_latched, hsel]
      simp
    · show ((s.clearLatches sel).chans.get c).act.drive = .off
      rw [State.clearLatches_eq]
      simp [hsel, stoppedSet]
  have hm' : ((s.clearLatches sel).settleOn sel).ctl.mode ≠ .starting := by
    rcases hm with h | h <;> simp [h]
  refine ⟨?_, hshow.inactive_of_quiet hm' hquiet⟩
  rw [hshow.kept.1, State.clearLatches_outs, if_pos hsel]

/-- Settles O43. -/
theorem clearTripsClearsEligible : Obligations.ClearTripsClearsEligible := by
  intro tag lo hi s cleared still hr hcleared hstill
  obtain ⟨t, he, ht⟩ := exec_taken (.clearTrips tag [lo, hi]) _ s rfl hr
  have hmask : cleared = chanMask (s.clears (hi ++ lo)) := hcleared.eq_chanMask _ fun c => by
    rw [State.clears, Bool.and_eq_true, State.clearable_iff]
  have hbit : ∀ c : ChanId, cleared.getLsbD c.val = s.clears (hi ++ lo) c := fun c => by
    rw [hmask, chanMask_getLsbD]
  refine ⟨t, he, fun h => ?_, fun h => ?_⟩
  · obtain ⟨t', he', ht'⟩ := exec_refusedState (k := .clear) rfl hr rfl rfl (c := .clearTrips tag [lo, hi])
      (show ReqKind.modeOk .clear s.ctl.mode = false by rw [h]; rfl)
    cases he.symm.trans he'
    exact ht'
  · rw [State.judge_take s _ .clear rfl ⟨rfl, inModes_setup_run h, rfl, rfl⟩] at ht
    have hstay : still = (hi ++ lo : Half) &&& ((s.clearLatches (s.clears (hi ++ lo))).settleOn
        (s.clears (hi ++ lo))).tripMask := by
      refine hstill.eq fun c => ?_
      have hl : ((s.clearLatches (s.clears (hi ++ lo))).settleOn (s.clears (hi ++ lo))).latched c
          = (s.latched c && !s.clears (hi ++ lo) c) := by
        show (s.clearLatches _).latched c = _
        rw [State.clearLatches_latched]
      rw [BitVec.getLsbD_and, State.tripMask, chanMask_getLsbD, hl, State.clears, Bool.and_eq_true, Bool.and_eq_true,
        Bool.not_eq_true', Bool.and_eq_false_iff, ← Bool.not_eq_true (s.clearable c), State.clearable_iff]
      constructor
      · rintro ⟨h1, h2, h3⟩
        exact ⟨h1, h2, h3.resolve_left (by rw [h1]; exact Bool.noConfusion)⟩
      · rintro ⟨h1, h2, h3⟩
        exact ⟨h1, h2, Or.inr h3⟩
    have hstate : ((s.clearLatches (s.clears (hi ++ lo))).settleOn (s.clears (hi ++ lo))) = { s with
        trips := s.trips.mapId fun c tr => if cleared.getLsbD c.val = true then { latch := false, cause := 0 } else tr
        chans := s.chans.mapId fun c ch =>
          if cleared.getLsbD c.val = true then { ch with act := stoppedSet ch.act } else ch
        outs := ((s.clearLatches (s.clears (hi ++ lo))).settleOn (s.clears (hi ++ lo))).outs } := by
      simp only [hbit]
      rfl
    have htaken : Taken (.clearTrips tag [lo, hi])
        (if (hi ++ lo : Half) &&& ((s.clearLatches (s.clears (hi ++ lo))).settleOn (s.clears (hi ++ lo))).tripMask = 0
          then .ok else .ilActive)
        (halfBytes (chanMask (s.clears (hi ++ lo))) ++ halfBytes ((hi ++ lo : Half) &&&
          ((s.clearLatches (s.clears (hi ++ lo))).settleOn (s.clears (hi ++ lo))).tripMask))
        ((s.clearLatches (s.clears (hi ++ lo))).settleOn (s.clears (hi ++ lo))) t := ht
    rw [← hstay, ← hmask] at htaken
    have hout := htaken.outs
    rw [hout]
    refine ⟨?_, fun c => ?_⟩
    · rw [hstate] at htaken
      exact htaken
    · rw [hbit]
      split
      · next hsel => exact State.clearLatches_settled_pins h hsel
      · next hsel =>
        have hn : s.clears (hi ++ lo) c = false := by simpa using hsel
        simp [State.settleOn, hn, State.clearLatches_outs]

end Sys2Proof.Machine
end

section
/-! SUPPORT. SEQ_DISARM, SEQ_HOME and TRIGGER, and the two ends of a run: START and STOP. -/

namespace Sys2Proof.Machine

theorem inModes_of_run {a b : Bool} {m : OpMode} (h : m = .run) : inModes a true b m = true := by rw [h]; rfl

/-! ### SEQ_DISARM, SEQ_HOME, TRIGGER -/

/-- SEQ_DISARM by the unit's state (R141). -/
theorem State.takeSeqDisarm_cases (body : List Byte) (s : State) :
    (s.seq.unit = .disabled → s.takeSeqDisarm body = .ok [0] s)
    ∧ (s.seq.unit ≠ .disabled → s.takeSeqDisarm body =
      .ok [if s.seq.unit = .running then 1 else 2] (State.settleGate s { s with seq := s.seq.disable })) := by
  unfold State.takeSeqDisarm
  refine ⟨fun h => by rw [if_pos h, h]; rfl, fun h => ?_⟩
  rw [if_neg h]
  cases hu : s.seq.unit with
  | disabled => exact absurd hu h
  | running => rfl
  | held => rfl

/-- A disarmed unit admits every channel (R140). -/
theorem SeqUnit.disable_gate (u : SeqUnit) (c : ChanId) : u.disable.gate.getLsbD c.val = true := by
  show (0xFFFF#16).getLsbD c.val = true
  revert c
  decide

/-- The pins at SEQ_DISARM: the channels the gate held back settle, and every untripped channel drives (R70). -/
theorem State.disarm_outs {s : State} (hm : s.ctl.mode = .run) (c : ChanId) :
    let t := State.settleGate s { s with seq := s.seq.disable }
    (s.seq.gate.getLsbD c.val = true → t.outs.get c = s.outs.get c)
    ∧ (s.seq.gate.getLsbD c.val = false → Shows t c (s.outs.get c) (t.outs.get c))
    ∧ ((s.chans.get c).mode ≠ .unused → (s.trips.get c).latch = false →
      t.driveState c = commandedState (s.chans.get c).act) := by
  intro t
  obtain ⟨hsame, hdiff⟩ := State.settleGate_outs (s := s) (t := { s with seq := s.seq.disable }) c rfl
  have hadm : ({ s with seq := s.seq.disable } : State).admits c = true := SeqUnit.disable_gate s.seq c
  rw [hadm] at hsame hdiff
  refine ⟨hsame, fun h => hdiff ?_, fun hu hl => ?_⟩
  · rw [State.admits, h]
    exact Bool.noConfusion
  · rw [State.driveState_run (s := t) hm hu hl]
    exact if_pos (SeqUnit.disable_gate s.seq c)

/-- SEQ_HOME by the unit's state (R153). -/
theorem State.takeSeqHome_cases (body : List Byte) (s : State) :
    (s.seq.unit ≠ .running → s.takeSeqHome body = .refuse .refusedState [] s)
    ∧ ∀ l, s.seq.unit = .running → s.seq.home = some l → s.takeSeqHome body =
      .ok [natByte (s.enterOutside l .seqHome).1.1, natByte (s.enterOutside l .seqHome).1.2]
        (s.enterOutside l .seqHome).2 := by
  unfold State.takeSeqHome
  refine ⟨fun h => if_pos h, fun l hr hl => ?_⟩
  rw [if_neg (fun h => h hr), hl]

/-- TRIGGER by the unit's state and the trigger's number (R144). -/
theorem State.takeTrigger_cases (b : Byte) (s : State) :
    (s.seq.unit ≠ .running → s.takeTrigger [b] = .refuse .refusedState [] s)
    ∧ (s.seq.unit = .running → 4 ≤ b.toNat → s.takeTrigger [b] = .refuse .badArg [] s)
    ∧ (s.seq.unit = .running → b.toNat < 4 → s.takeTrigger [b] =
      .ok [if s.seq.latches.trigger.getLsbD b.toNat = true then 1 else 0]
        { s with seq := { s.seq with latches := { s.seq.latches with
          trigger := s.seq.latches.trigger ||| (1#4 <<< b.toNat) } } }) := by
  unfold State.takeTrigger
  refine ⟨fun h => if_pos h, fun hr hb => ?_, fun hr hb => ?_⟩
  · rw [if_neg (fun h => h hr)]
    exact if_pos (Nat.lt_of_succ_le hb)
  · rw [if_neg (fun h => h hr)]
    exact if_neg (Nat.not_lt.2 (Nat.le_of_lt_succ hb))

/-- Settles O47, request by request. -/
theorem disarmHomeAndTrigger : Obligations.DisarmHomeAndTrigger := by
  intro tag b s hr hm
  have hrun : inModes false true false s.ctl.mode = true := inModes_of_run hm
  refine ⟨?_, ?_, ?_⟩
  · obtain ⟨t, he, ht⟩ := exec_take (k := .seqDisarm) rfl hr rfl ⟨rfl, hrun, rfl, rfl⟩ (c := .seqDisarm tag [])
    obtain ⟨hoff, hon⟩ := s.takeSeqDisarm_cases []
    refine ⟨t, he, fun h => ht.of_answer (hoff h), fun h => ?_⟩
    have hta : Taken (.seqDisarm tag []) .ok [if s.seq.unit = .running then 1 else 2]
        (State.settleGate s { s with seq := s.seq.disable }) t := ht.of_answer (hon h)
    refine ⟨?_, fun c => ?_⟩
    · rw [hta.outs]
      exact hta
    · obtain ⟨hkeep, hshow, hdrive⟩ := State.disarm_outs hm c
      rw [hta.outs]
      refine ⟨hkeep, fun hg => Shows.linkFree hta.linkFree (hshow hg), fun hu hl => ?_⟩
      rw [hta.linkFree]
      exact hdrive hu hl
  · obtain ⟨t, he, ht⟩ := exec_take (k := .seqHome) rfl hr rfl ⟨rfl, hrun, rfl, rfl⟩ (c := .seqHome tag [])
    obtain ⟨hbad, hok⟩ := s.takeSeqHome_cases []
    refine ⟨t, he, fun h => ht.of_answer (hbad h), ?_⟩
    intro l p d u hu hl henter
    refine ⟨ht.of_answer ((hok l hu hl).trans (by rw [henter]; rfl)), ?_⟩
    have hunit : (s.enterOutside l .seqHome).2.seq.unit = s.seq.unit := State.enterLine_unit l _ s
    rw [henter] at hunit
    exact hunit.trans hu
  · obtain ⟨t, he, ht⟩ := exec_take (k := .trigger) rfl hr rfl ⟨rfl, hrun, rfl, rfl⟩ (c := .trigger tag [b])
    obtain ⟨hstop, hbad, hok⟩ := s.takeTrigger_cases b
    exact ⟨t, he, fun h => ht.of_answer (hstop h), fun h hb => ht.of_answer (hbad h hb),
      fun h hb => ht.of_answer (hok h hb)⟩

/-! ### START -/

/-- The output records before the pins are settled, where the used channels load a level of 0 (R71, R74). -/
theorem State.loadCompare_used_outs {s : State} {c : ChanId}
    (h : (s.chans.get c).mode ≠ .unused → (s.chans.get c).act.level = 0) :
    (s.loadCompare s.used).outs.get c = if (s.chans.get c).mode = .unused then s.outs.get c
      else { s.outs.get c with compare := 0, side := .none } := by
  simp only [State.loadCompare, Bank.get_mapId]
  by_cases hu : (s.chans.get c).mode = .unused
  · rw [if_pos hu, if_neg (fun hn => (s.used_iff c).1 hn hu)]
  · rw [if_neg hu, if_pos ((s.used_iff c).2 hu), Out.load_eq, h hu, Out.loaded_zero]

/-- Every channel after START or STOP: what it shows, its compare value, and an inactive pair where it is used, OFF
and untripped (R66, R71, R72). -/
theorem State.settled_outs {s u : State} {c : ChanId} (hu : u = (s.loadCompare s.used).settle)
    (hlevel : (s.chans.get c).mode ≠ .unused → (s.chans.get c).act.level = 0)
    (hoff : (s.chans.get c).mode ≠ .unused → (s.chans.get c).act.drive = .off)
    (hm : s.ctl.mode = .setup ∨ s.ctl.mode = .run) :
    Shows u c (if (s.chans.get c).mode = .unused then s.outs.get c
      else { s.outs.get c with compare := 0, side := .none }) (u.outs.get c)
    ∧ ((s.chans.get c).mode ≠ .unused → (u.outs.get c).compare = 0
      ∧ ((s.trips.get c).latch = false → (u.outs.get c).pinA = .inactive ∧ (u.outs.get c).pinB = .inactive)) := by
  subst hu
  have hshow := State.settle_shows (s.loadCompare s.used) c
  rw [State.loadCompare_used_outs hlevel] at hshow
  refine ⟨hshow, fun hused => ⟨?_, fun hl => ?_⟩⟩
  · rw [hshow.kept.1, if_neg hused]
  · refine hshow.inactive_of_quiet (by rcases hm with h | h <;> simp [h]) ?_
    exact State.driveState_of_stopped (by simpa using hm) (by simpa [State.latched] using hl) (by simpa using hoff hused)

theorem getLsbD_allOnes_half (c : ChanId) : (0xFFFF : Half).getLsbD c.val = true := by
  revert c
  decide

theorem Channel.restart_eq (ch : Channel) : ch.restart = { ch with act := freshSet ch.mode ch.cfg, clamped := false } := by
  unfold Channel.restart Channel.startSet freshSet Channel.defaultLo
  cases ch.mode <;> rfl

theorem Channel.used_iff (ch : Channel) : ch.used = true ↔ ch.mode ≠ .unused := by
  unfold Channel.used
  cases ch.mode <;> decide

/-- The state an accepted START begins from, before its compare values and pins (R174). -/
def State.runBegins (h q : Nat) (s : State) : State := { s with
  queue := { entries := [], hold := false, holdAt := h, resumeAt := q }
  tb := { s.tb with
    divider := 0, counter := 0, dir := .up, rep := s.tb.active.rep, bnum := 0, run := .running
    frameEndDue := false }
  chans := s.chans.mapId fun _ ch => if ch.mode = .unused then ch
    else { ch with act := freshSet ch.mode ch.cfg, clamped := false }
  senses := s.senses.mapId fun _ x => { x with capture := none, captured := false, overcaptured := false }
  accs := s.accs.mapId fun _ _ => { value := 0, count := 0, sat := false, armed := true }
  ctl := { s.ctl with mode := .run } }

theorem State.beginRun_eq (h q : Nat) (s : State) :
    s.beginRun h q = ((s.runBegins h q).loadCompare (s.runBegins h q).used).settle := by
  have hchans : (s.chans.mapId fun _ ch => if ch.used then ch.restart else ch) = (s.runBegins h q).chans :=
    Bank.ext_get fun c => by
      simp only [State.runBegins, Bank.get_mapId, Channel.restart_eq]
      by_cases hu : (s.chans.get c).mode = .unused
      · rw [if_pos hu, if_neg fun hn => (Channel.used_iff _).1 hn hu]
      · rw [if_neg hu, if_pos ((Channel.used_iff _).2 hu)]
  have haccs : (s.accs.mapId fun c a => if (0xFFFF : Half).getLsbD c.val then .cleared else a)
      = (s.runBegins h q).accs :=
    Bank.ext_get fun c => by
      simp only [State.runBegins, Bank.get_mapId]
      rw [if_pos (getLsbD_allOnes_half c)]
      rfl
  unfold State.beginRun State.clearAccums
  dsimp only
  rw [hchans]
  show State.settle (State.loadCompare _ _) = _
  simp only [State.clearCaptures, haccs]
  rfl

theorem thresholdsOk_iff (h q : Nat) : thresholdsOk h q = true ↔ 2 ≤ h ∧ h ≤ 32 ∧ q < h := by
  simp only [thresholdsOk, Bool.and_eq_true, decide_eq_true_eq, and_assoc]

/-- Settles O36. -/
theorem startBeginsTheRun : Obligations.StartBeginsTheRun := by
  intro tag h q s hr hm hlay htb
  obtain ⟨t, he, ht⟩ := exec_take (k := .start) rfl hr rfl
    ⟨rfl, by rw [ReqKind.modeOk, hm]; rfl, by rw [ReqKind.orderOk, hlay, htb]; rfl, rfl⟩ (c := .start tag [h, q])
  have hans : s.takeStart [h, q] = if thresholdsOk h.toNat q.toNat then .ok [] (s.beginRun h.toNat q.toNat)
      else .refuse .badArg [] s := rfl
  refine ⟨t, he, fun hbad => ht.of_answer ?_, fun hok => ?_⟩
  · exact hans.trans (if_neg fun hn => hbad ((thresholdsOk_iff _ _).1 hn))
  · have hta : Taken (.start tag [h, q]) .ok [] (s.beginRun h.toNat q.toNat) t :=
      ht.of_answer (hans.trans (if_pos ((thresholdsOk_iff _ _).2 hok)))
    rw [State.beginRun_eq] at hta
    have hmode : ∀ c, ((s.runBegins h.toNat q.toNat).chans.get c).mode = (s.chans.get c).mode := fun c => by
      simp only [State.runBegins, Bank.get_mapId]
      split <;> rfl
    have hfresh : ∀ c, (s.chans.get c).mode ≠ .unused →
        ((s.runBegins h.toNat q.toNat).chans.get c).act = freshSet (s.chans.get c).mode (s.chans.get c).cfg := fun c hc => by
      simp only [State.runBegins, Bank.get_mapId, if_neg hc]
    have hout := fun c => State.settled_outs (c := c) (s := s.runBegins h.toNat q.toNat) rfl
      (fun hc => by rw [hfresh c (hmode c ▸ hc)]; rfl) (fun hc => by rw [hfresh c (hmode c ▸ hc)]; rfl) (Or.inr rfl)
    refine ⟨?_, fun c hc => ?_, fun c => ?_⟩
    · rw [hta.outs]
      exact hta
    · rw [hta.outs]
      exact (hout c).2 (by rwa [hmode c])
    · have hc := (hout c).1
      rw [hmode c] at hc
      rw [hta.outs]
      exact Shows.linkFree hta.linkFree hc

/-! ### STOP -/

theorem stoppedSet_stoppedSet (a : ActiveSet) : stoppedSet (stoppedSet a) = stoppedSet a := rfl

/-- The state an accepted STOP leaves before its compare values and pins (R175). -/
def State.runEnds (s : State) : State := { s with
  seq := s.seq.disable
  queue := afterRemoval s.queue []
  link := flowOfRemoval s.queue [] s.link
  chans := s.chans.mapId fun _ ch =>
    { ch with
      cfg := ch.pendCfg.getD ch.cfg, pendCfg := none
      act := if ch.mode = .unused then ch.act else stoppedSet ch.act }
  accs := s.accs.mapId fun c a =>
    if ∃ g ∈ (s.chans.get c).pendCfg, g.accMode ≠ (s.chans.get c).cfg.accMode then
      { value := 0, count := 0, sat := false, armed := true } else a
  tb := { s.tb with
    active := s.tb.staged, divider := 0, counter := 0, dir := .up, rep := s.tb.staged.rep, run := .stopped }
  ctl := { s.ctl with mode := .setup } }

/-- The state the AUTO test of STOP finds is `State.runEnds` (R175). -/
theorem State.endRun_eq (s : State) :
    s.endRun = (s.runEnds.autoTest.loadCompare s.runEnds.autoTest.used).settle := by
  have hstart : ({ s with seq := s.seq.disable } : State).removeEntries (fun _ => true) = { s with
      seq := s.seq.disable, queue := afterRemoval s.queue [], link := flowOfRemoval s.queue [] s.link } := by
    rw [State.removeEntries_eq]
    simp
  have hchans : ((s.chans.mapId fun _ ch => ch.adopt).mapId fun _ ch => if ch.used then ch.halt else ch)
      = s.runEnds.chans :=
    Bank.ext_get fun c => by
      simp only [State.runEnds, Bank.get_mapId, Channel.adopt_eq]
      refine (if_congr (Channel.used_iff _) rfl rfl).trans ?_
      by_cases hu : (s.chans.get c).mode = .unused
      · rw [if_pos hu]
        exact if_neg fun h => h hu
      · rw [if_neg hu]
        exact if_pos hu
  have haccs : (s.accs.mapId fun c a => if (s.chans.get c).changesAccMode then .cleared else a) = s.runEnds.accs :=
    Bank.ext_get fun c => by
      simp only [State.runEnds, Bank.get_mapId]
      exact if_congr (Channel.changesAccMode_iff _) rfl rfl
  unfold State.endRun
  dsimp only
  rw [hstart]
  simp only [State.adoptConfigs, hchans, haccs]
  rfl

theorem State.runEnds_autoEligible (s : State) (c : ChanId) : autoEligible s.runEnds c ↔ autoEligible s c :=
  autoEligible_congr (by simp [State.runEnds]) (by simp [State.runEnds]) rfl rfl

/-- What the AUTO test clears at STOP was stopped already: it leaves the channels alone (R72, R175). -/
theorem State.runEnds_autoTest (s : State) : s.runEnds.autoTest = { s.runEnds with
    trips := s.trips.mapId fun c tr => if autoEligible s c then { latch := false, cause := 0 } else tr
    outs := s.runEnds.autoTest.outs } := by
  have hel := s.runEnds_autoEligible
  have hchans : s.runEnds.autoTest.chans = s.runEnds.chans := Bank.ext_get fun c => by
    rw [(State.autoTest_chan s.runEnds c).1]
    split
    · next h =>
      have hu : (s.chans.get c).mode ≠ .unused := ((hel c).1 h).1
      simp only [State.runEnds, Bank.get_mapId, if_neg hu, stoppedSet_stoppedSet]
    · rfl
  have htrips : s.runEnds.autoTest.trips
      = s.trips.mapId fun c tr => if autoEligible s c then { latch := false, cause := 0 } else tr :=
    Bank.ext_get fun c => by
      rw [(State.autoTest_chan s.runEnds c).2, Bank.get_mapId]
      exact if_congr (hel c) rfl rfl
  have hrest : s.runEnds.autoTest = { s.runEnds with
      trips := s.runEnds.autoTest.trips, chans := s.runEnds.autoTest.chans, outs := s.runEnds.autoTest.outs } := rfl
  rw [hchans, htrips] at hrest
  exact hrest

/-- The output records of the used channels before their pins are settled at STOP (R71, R72). -/
theorem State.runEnds_outs (s : State) (c : ChanId) :
    (if (s.chans.get c).mode = .unused then s.runEnds.autoTest.outs.get c
      else { s.runEnds.autoTest.outs.get c with compare := 0, side := .none })
    = if (s.chans.get c).mode = .unused then s.outs.get c else { s.outs.get c with compare := 0, side := .none } := by
  have hout : s.runEnds.autoTest.outs.get c =
      if autoEligible s c then { s.outs.get c with compare := 0, side := .none } else s.outs.get c :=
    (State.autoTest_outs s.runEnds c).trans (if_congr (s.runEnds_autoEligible c) rfl rfl)
  rw [hout]
  split
  · next hu => exact if_neg fun h => h.1 hu
  · split <;> rfl

/-- Settles O37. -/
theorem stopEndsTheRun : Obligations.StopEndsTheRun := by
  intro tag s hr hm
  obtain ⟨t, he, ht⟩ := exec_take (k := .stop) rfl hr rfl ⟨rfl, inModes_of_run hm, rfl, rfl⟩ (c := .stop tag [])
  have hta : Taken (.stop tag []) .ok (wordBytes s.endRun.tb.bnum) s.endRun t := ht
  have htb : s.endRun.tb.bnum = s.tb.bnum := by rw [State.endRun_eq]; rfl
  rw [htb, State.endRun_eq] at hta
  have hmode : ∀ c, (s.runEnds.autoTest.chans.get c).mode = (s.chans.get c).mode := fun c => by
    rw [s.runEnds_autoTest]
    simp [State.runEnds]
  have hstopped : ∀ c, (s.chans.get c).mode ≠ .unused →
      (s.runEnds.autoTest.chans.get c).act = stoppedSet (s.chans.get c).act := fun c hc => by
    rw [s.runEnds_autoTest]
    simp [State.runEnds, hc]
  have hout := fun c => State.settled_outs (c := c) (s := s.runEnds.autoTest) rfl
    (fun hc => by rw [hstopped c (hmode c ▸ hc)]; rfl) (fun hc => by rw [hstopped c (hmode c ▸ hc)]; rfl)
    (Or.inl (by simp [State.runEnds]))
  refine ⟨t, he, ?_, fun c hc => ?_, fun c => ?_⟩
  · have hstate : (s.runEnds.autoTest.loadCompare s.runEnds.autoTest.used).settle = { s.runEnds with
        trips := s.trips.mapId fun c tr => if autoEligible s c then { latch := false, cause := 0 } else tr
        outs := t.outs } := by
      rw [hta.outs]
      generalize hu : (s.runEnds.autoTest.loadCompare s.runEnds.autoTest.used).settle = u
      have hrest : u = { s.runEnds.autoTest with outs := u.outs } := by rw [← hu]; rfl
      rw [s.runEnds_autoTest] at hrest
      exact hrest
    rw [hstate] at hta
    exact hta
  · obtain ⟨hcompare, hpins⟩ := (hout c).2 (by rwa [hmode c])
    have htrip : t.trips.get c = s.runEnds.autoTest.trips.get c := by rw [hta.linkFree]; simp
    have hidle : (t.trips.get c).latch = false → t.driveState c = .idle := fun hl => by
      have hoff : (t.chans.get c).act.drive = .off ∧ (t.chans.get c).mode = (s.chans.get c).mode := by
        rw [hta.linkFree]
        exact ⟨by simp [hstopped c hc, stoppedSet], by simp [hmode c]⟩
      have hm' : t.ctl.mode = .setup := by rw [hta.linkFree]; simp [State.runEnds]
      have hu : t.used c = true := (t.used_iff c).2 (hoff.2 ▸ hc)
      simp [State.driveState, hu, hm', State.latched, hl]
    rw [hta.outs]
    exact ⟨hcompare, fun hl => ⟨hidle hl, hpins (htrip ▸ hl)⟩⟩
  · have hc := (hout c).1
    rw [hmode c, s.runEnds_outs c] at hc
    rw [hta.outs]
    exact Shows.linkFree hta.linkFree hc

end Sys2Proof.Machine
end

section
/-! SUPPORT. Released entries and ramp steps, a check's visits and steps, the pins of each drive state, and the
receiver's bytes. -/

namespace Sys2Proof.Machine

/-! ### Released entries and ramp steps -/

theorem clampTo_fun : clampTo = fun lo hi v => if v < lo then lo else if hi < v then hi else v := rfl

theorem Channel.release_of {e : Entry} {p : Setpoint} (h : e.setpoint = p) (g : Channel) :
    g.release e = { g with act := g.act.apply p, clamped := g.clamped || g.act.clampsOn p } := by
  rw [Channel.release, h]

/-- A CLAMP entry changes a ramp's target (R55). -/
theorem ActiveSet.clampsOn_clamp (a : ActiveSet) (lo hi : Int) : a.clampsOn (.clamp lo hi) =
    (decide (clampTo lo hi a.level ≠ a.level) || decide (∃ r ∈ a.ramp, clampTo lo hi r.target ≠ r.target)) := by
  unfold ActiveSet.clampsOn
  cases a.ramp with
  | none => simp
  | some r => simp

theorem ActiveSet.step_of_ramp {a : ActiveSet} {r : Ramp} (h : a.ramp = some r) : a.step =
    { a with level := r.move a.level, ramp := if r.move a.level = r.target then none else some r } := by
  rw [ActiveSet.step, h]

/-- A step that does not cover the distance does not reach the target (R62). -/
theorem Ramp.move_of_short {r : Ramp} {v : Int} (h : r.step < (r.target - v).natAbs) :
    r.move v = (if v < r.target then v + r.step else v - r.step) ∧ r.move v ≠ r.target := by
  unfold Ramp.move
  rw [if_neg (Nat.not_le.2 h)]
  refine ⟨rfl, ?_⟩
  split <;> omega

/-- Settles O49, setpoint by setpoint. -/
theorem releasedEntriesAndRampSteps : Obligations.ReleasedEntriesAndRampSteps := by
  rintro g e a clamp rfl rfl
  rw [← clampTo_fun]
  refine ⟨fun v h => ?_, fun v st h => ?_, fun d h => ?_, fun lo hi h => ?_, fun h => ?_, fun r h => ⟨fun hd => ?_, fun hd => ?_⟩⟩
  · exact Channel.release_of h g
  · exact Channel.release_of h g
  · rw [Channel.release_of h g]
    simp [ActiveSet.clampsOn, ActiveSet.apply]
  · rw [Channel.release_of h g, ActiveSet.clampsOn_clamp, ← Bool.or_assoc]
    rfl
  · rw [ActiveSet.step, h]
  · rw [ActiveSet.step_of_ramp h, Ramp.move, if_pos hd, if_pos rfl]
  · obtain ⟨hmove, hne⟩ := Ramp.move_of_short hd
    rw [ActiveSet.step_of_ramp h, if_neg hne, hmove, ← h]

/-! ### A check's visits and steps -/

/-- Past the first occurrence of a record in a list without repeats stands what follows it. -/
theorem drop_one_dropWhile_ne {α : Type} [DecidableEq α] {l before after : List α} {x : α} (hn : l.Nodup)
    (h : l = before ++ x :: after) : (l.dropWhile fun y => decide (y ≠ x)).drop 1 = after := by
  subst h
  have hb : ∀ y ∈ before, decide (y ≠ x) = true := fun y hy =>
    decide_eq_true fun e => (List.nodup_append.1 hn).2.2 y hy x (List.mem_cons_self ..) e
  rw [List.dropWhile_append_of_pos hb, List.dropWhile_cons_of_neg (by simp)]
  rfl

theorem stepsOf_nodup (p : Pass) (m : ChanMode) : (stepsOf p m).Nodup := by
  cases p <;> cases m <;> decide

theorem CheckParams.places_nodup (q : CheckParams) : q.places.Nodup := List.nodup_range.filter _

theorem Passes.list_nodup (p : Passes) : p.list.Nodup := by
  cases p <;> decide

theorem CheckParams.visits_nodup (q : CheckParams) : q.visits.Nodup := by
  refine List.nodup_flatMap.2 ⟨fun p _ => q.places_nodup.map fun a b h => (Prod.mk.inj h).2, ?_⟩
  refine q.passes.list_nodup.imp fun {a b} hab => ?_
  intro v ha hb
  obtain ⟨i, _, rfl⟩ := List.mem_map.1 ha
  obtain ⟨j, _, hj⟩ := List.mem_map.1 hb
  exact hab (Prod.mk.inj hj).1.symm

/-- The channels of a check, in the visiting order (R158). -/
theorem CheckParams.places_channels (q : CheckParams) : q.places.map (visitChannel q.order) =
    ((List.range 16).map (visitChannel q.order)).filter fun c => q.mask.getLsbD c.val :=
  (List.filter_map (f := visitChannel q.order) (p := fun c => q.mask.getLsbD c.val) (l := List.range 16)).symm

/-- Settles O20. -/
theorem checkVisitsAndSteps : Obligations.CheckVisitsAndSteps := by
  refine ⟨?_, by decide, ?_, ?_⟩
  · intro q order horder each heq
    have hall : order = (List.range 16).map (visitChannel q.order) := by
      rw [horder]
      cases q.order <;> rfl
    subst heq hall
    have heach : ∀ p : Pass, (q.places.map fun k => (p, k)).map (fun v => (v.1, visitChannel q.order v.2))
        = (q.places.map (visitChannel q.order)).map fun c => (p, c) := fun p => by
      rw [List.map_map, List.map_map]
      rfl
    simp only [← q.places_channels, ← heach, CheckParams.visits, List.map_flatMap]
    cases q.passes with
    | static => exact List.append_nil _
    | pulse => exact List.append_nil _
    | both => exact congrArg _ (List.append_nil _)
  · intro p m before after st h
    rw [stepAfter, drop_one_dropWhile_ne (stepsOf_nodup p m) h]
  · intro q p before after h
    exact drop_one_dropWhile_ne q.visits_nodup h

/-! ### The pins of each drive state -/

theorem ActiveSet.driveState_eq (a : ActiveSet) : a.driveState = commandedState a := by
  unfold ActiveSet.driveState commandedState
  cases a.drive <;> cases a.ramp <;> rfl

theorem CheckEngine.channel_eq_some (k : CheckEngine) (c : ChanId) : k.channel = some c ↔
    ∃ q p, k.params = some q ∧ k.position = some p ∧ visitChannel q.order p.place = c := by
  unfold CheckEngine.channel
  cases k.params <;> cases k.position <;> simp

/-- The pins after an empty queue's drive clock are settled (R66). -/
theorem State.idle_settle (s : State) : s.idle.settle = s.idle := State.settle_settle _

/-- Settles O51. -/
theorem pinsShowDriveStates : Obligations.PinsShowDriveStates := by
  refine ⟨?_, State.settle_shows, ?_, ?_⟩
  · rintro s c g rfl
    refine ⟨fun h => ?_, fun h hm => ?_, fun h hm => ?_, fun h hm => ?_⟩
    · exact State.driveState_of_unused (by simpa [h] using s.used_iff c)
    · cases hl : (s.trips.get c).latch with
      | true => simp [State.driveState, (s.used_iff c).2 h, hm, State.latched, hl]
      | false =>
        rw [State.driveState_run hm h hl, if_neg Bool.false_ne_true]
        cases s.seq.gate.getLsbD c.val <;> rfl
    · rw [State.driveState, if_pos ((s.used_iff c).2 h), hm]
      rfl
    · have hd : s.driveState c = if s.check.channel = some c then .checking
          else if (s.trips.get c).latch = true then .tripped else .idle := by
        rw [State.driveState, if_pos ((s.used_iff c).2 h), hm]
        rfl
      refine ⟨fun hq => hd.trans (if_pos ((CheckEngine.channel_eq_some ..).2 hq)), fun hq => hd.trans (if_neg ?_)⟩
      rw [CheckEngine.channel_eq_some]
      rintro ⟨q, p, hp, ho, hv⟩
      exact hq q p hp ho hv
  · intro s t hp he c
    cases (step_of_nil s hp).symm.trans he
    have hshow := State.settle_shows s.idle c
    rwa [s.idle_settle] at hshow
  · rintro s c x d pol (⟨rfl, rfl, rfl⟩ | ⟨rfl, rfl, rfl⟩)
    · unfold State.pinLevel
      cases (s.outs.get c).pinA <;> cases (s.chans.get c).cfg.polA <;> rfl
    · unfold State.pinLevel
      cases (s.outs.get c).pinB <;> cases (s.chans.get c).cfg.polB <;> rfl

/-! ### The receiver's bytes -/

theorem exec_byteReceived (b : Byte) (s : State) : exec (.byteReceived b) s = .next (s.receive b) := rfl

theorem State.receive_of_starting {s : State} (b : Byte) (h : s.ctl.mode = .starting) : s.receive b = s := if_pos h

theorem State.receive_of_running {s : State} (b : Byte) (h : s.ctl.mode ≠ .starting) :
    s.receive b = s.takeRx (s.link.rx.take b) := if_neg h

/-- What a byte does to a receiver that hunts, that awaits LEN, and that stands within a frame (R180). -/
theorem Rx.take_cases (b : Byte) :
    Rx.hunting.take b = (if b = 0xC3 then .inFrame [] else .hunting, .nothing)
    ∧ Rx.take (.inFrame []) b = (if 60 < b.toNat then (.hunting, .framingError) else (.inFrame [b], .nothing))
    ∧ ∀ (len : Byte) (rest : List Byte),
      (rest.length + 2 ≠ len.toNat + 5 →
        Rx.take (.inFrame (len :: rest)) b = (.inFrame (len :: rest ++ [b]), .nothing))
      ∧ (rest.length + 2 = len.toNat + 5 →
        Rx.take (.inFrame (len :: rest)) b = (.hunting, judgeFrame (len :: rest ++ [b]))) := by
  refine ⟨rfl, rfl, fun len rest => ?_⟩
  have hl : (len :: rest ++ [b]).length = rest.length + 2 := by simp
  refine ⟨fun h => if_neg ?_, fun h => if_pos ?_⟩
  · rwa [hl]
  · rwa [hl]

/-- The bytes of a whole frame before its last CRC byte hold what its CRC covers and its body (R180). -/
theorem judgeFrame_eq {len b : Byte} {rest : List Byte} (h : rest.length + 2 = len.toNat + 5) :
    judgeFrame (len :: rest ++ [b]) =
      if crcOf ((len :: rest).take (len.toNat + 3)) = halfAt (len :: rest ++ [b]) (len.toNat + 3) then
        .frame { kind := byteAt rest 0, tag := byteAt rest 1, body := (rest.drop 2).take len.toNat }
      else .crcError := by
  have hlen : (byteAt (len :: rest ++ [b]) 0).toNat = len.toNat := rfl
  have htake : (len :: rest ++ [b]).take (len.toNat + 3) = (len :: rest).take (len.toNat + 3) :=
    List.take_append_of_le_length (by simp; omega)
  obtain ⟨k, tag, body, rfl⟩ : ∃ k tag body, rest = k :: tag :: body := by
    match rest, h with
    | k :: tag :: body, _ => exact ⟨k, tag, body, rfl⟩
    | [_], h => simp at h
    | [], h => simp at h
  have hbody : (body ++ [b]).take len.toNat = body.take len.toNat :=
    List.take_append_of_le_length (by simp at h; omega)
  unfold judgeFrame
  dsimp only
  rw [hlen, htake]
  refine if_congr Iff.rfl ?_ rfl
  show RxEvent.frame { kind := k, tag := tag, body := (body ++ [b]).take len.toNat } = _
  rw [hbody]
  rfl

/-- A partial frame is discarded with a framing error counted (R180). -/
theorem State.breakRx_eq (s : State) : s.breakRx =
    if s.ctl.mode = .starting ∨ s.link.rx = .hunting then s
    else { s with link :=
      { s.link with rx := .hunting, framingErrors := min (s.link.framingErrors + 1) 65535 } } := by
  unfold State.breakRx
  by_cases hm : s.ctl.mode = .starting
  · rw [if_pos hm, if_pos (Or.inl hm)]
  · rw [if_neg hm, Link.breakFrame]
    cases hr : s.link.rx with
    | hunting =>
      rw [if_pos (Or.inr rfl)]
    | inFrame bytes =>
      rw [if_neg (by simp [hm])]
      rfl

/-- Settles O24. -/
theorem receiverTakesBytes : Obligations.ReceiverTakesBytes := by
  refine ⟨fun b s => ⟨fun hm => ?_, fun hm => ?_, ?_, ?_⟩, ?_⟩
  · rw [exec_byteReceived, State.receive_of_starting b hm]
  · rw [exec_byteReceived, State.receive_of_running b hm]
    obtain ⟨hhunt, hlen, hin⟩ := Rx.take_cases b
    refine ⟨fun hr => ?_, fun hr => ?_, fun len rest hr => ⟨fun h => ?_, fun h => ⟨fun hbad => ?_, fun hok => ?_⟩⟩⟩
    · rw [hr, hhunt]
      split
      · rfl
      · exact congrArg Host.Outcome.next (show { s with link := { s.link with rx := .hunting } } = s by rw [← hr])
    · rw [hr, hlen]
      split <;> rfl
    · rw [hr, (hin len rest).1 h]
      rfl
    · rw [hr, (hin len rest).2 h, judgeFrame_eq h, if_neg hbad]
      rfl
    · rw [hr, (hin len rest).2 h, judgeFrame_eq h, if_pos hok]
      exact congrArg Host.Outcome.next (if_neg hm).symm
  · show execFrameComplete b s = _
    unfold execFrameComplete
    match hr : s.link.rx with
    | .hunting => rfl
    | .inFrame [] => rfl
    | .inFrame (len :: rest) =>
      simp only [Rx.awaitsLast, decide_eq_true_eq]
      rfl
  · show execFramingError (.lenAbove b) s = _
    unfold execFramingError
    refine if_congr ?_ rfl rfl
    rw [Bool.and_eq_true, decide_eq_true_eq]
    refine and_congr ?_ Iff.rfl
    match hr : s.link.rx with
    | .hunting => simp [Rx.awaitsLen]
    | .inFrame [] => simp [Rx.awaitsLen]
    | .inFrame (len :: rest) => simp [Rx.awaitsLen]
  · intro c s hc
    have hbreak : exec c s = .next s.breakRx := by rcases hc with rfl | rfl <;> rfl
    rw [hbreak, s.breakRx_eq, apply_ite Host.Outcome.next]

end Sys2Proof.Machine
end

section
/-! SUPPORT. Compare matches and the expiries of the dead-time and of the wanted time. -/

namespace Sys2Proof.Machine

/-! ### What the pins show when outputs rise -/

/-- An output becomes ACTIVE only where it is wanted and its guards allow it (R79, R80). -/
theorem Shows.some_of_active {s : State} {c : ChanId} {o u : Out} (h : Shows s c o u)
    (hp : u.pinA = .active ∨ u.pinB = .active) : ∃ a b d, s.wants c u.ref o.side = some (a, b, d) := by
  obtain ⟨_, _, _, h⟩ := h
  cases hw : s.wants c u.ref o.side with
  | some w => exact ⟨w.1, w.2.1, w.2.2, rfl⟩
  | none =>
    rw [hw] at h
    rw [h] at hp
    rcases hp with hp | hp <;> cases hp

theorem Shows.wantA_of_active {s : State} {c : ChanId} {o u : Out} (h : Shows s c o u) (hp : u.pinA = .active) :
    u.wantA = true := by
  obtain ⟨a, b, d, hw⟩ := h.some_of_active (Or.inl hp)
  obtain ⟨_, _, _, h⟩ := h
  rw [hw] at h
  obtain ⟨ha, _, _, _, hA, _⟩ := h
  exact ha.trans (hA.1 hp).1

theorem Shows.wantB_of_active {s : State} {c : ChanId} {o u : Out} (h : Shows s c o u) (hp : u.pinB = .active) :
    u.wantB = true := by
  obtain ⟨a, b, d, hw⟩ := h.some_of_active (Or.inr hp)
  obtain ⟨_, _, _, h⟩ := h
  rw [hw] at h
  obtain ⟨_, hb, _, _, _, hB, _⟩ := h
  exact hb.trans (hB.1 hp).1

/-- The guards that an output A that became ACTIVE has passed (R79, R80). -/
theorem Shows.riseA_guards {s : State} {c : ChanId} {o u : Out} (h : Shows s c o u) (hu : u.pinA = .active)
    (ho : o.pinA ≠ .active) : u.pinB ≠ .active ∧ (s.chans.get c).deadTime ≤ o.offB
    ∧ ∀ a b, s.wants c u.ref o.side = some (a, b, true) → (s.chans.get c).deadTime ≤ o.wtA := by
  obtain ⟨a, b, d, hw⟩ := h.some_of_active (Or.inl hu)
  obtain ⟨_, _, _, h⟩ := h
  rw [hw] at h
  obtain ⟨_, _, _, _, hA, hB, _⟩ := h
  obtain ⟨_, hguard⟩ := hA.1 hu
  obtain ⟨hpartner, hoff, hdelay⟩ := hguard.resolve_left ho
  refine ⟨fun hb => ?_, hoff, fun a' b' e => hdelay ?_⟩
  · obtain ⟨hb1, hb2⟩ := hB.1 hb
    rcases hb2 with hb2 | hb2
    · exact hpartner ⟨hb2, hb1⟩
    · exact hb2.1 hu
  · rw [hw] at e
    cases e
    rfl

/-- The guards that an output B that became ACTIVE has passed (R79, R80). -/
theorem Shows.riseB_guards {s : State} {c : ChanId} {o u : Out} (h : Shows s c o u) (hu : u.pinB = .active)
    (ho : o.pinB ≠ .active) : u.pinA ≠ .active ∧ (s.chans.get c).deadTime ≤ u.offA
    ∧ ∀ a b, s.wants c u.ref o.side = some (a, b, true) → (s.chans.get c).deadTime ≤ o.wtB := by
  obtain ⟨a, b, d, hw⟩ := h.some_of_active (Or.inr hu)
  obtain ⟨_, _, _, h⟩ := h
  rw [hw] at h
  obtain ⟨_, _, _, _, _, hB, hA', _⟩ := h
  obtain ⟨hpartner, hoff, hdelay⟩ := (hB.1 hu).2.resolve_left ho
  refine ⟨hpartner, ?_, fun a' b' e => hdelay ?_⟩
  · rw [(hA' hpartner).2]
    exact hoff
  · rw [hw] at e
    cases e
    rfl

/-! ### COMPARE_MATCH -/

/-- What a driving channel wants of its outputs, by its mode (R78). -/
def pulsesOf (m : ChanMode) (ref : Bool) (side : Side) : Bool × Bool × Bool :=
  match m with
  | .unused => (false, false, false)
  | .single => (ref, false, false)
  | .complement => (ref, !ref, true)
  | .directional => (ref && decide (side = .a), ref && decide (side = .b), false)

/-- The channel follows its reference: it drives, or is CHECKING in a PULSE step (R78, R86). -/
def State.pulsing (s : State) (c : ChanId) : Prop :=
  s.driveState c = .driving ∨ s.driveState c = .ramping
  ∨ s.driveState c = .checking ∧ ∃ p, s.check.position = some p ∧ (p.step = .pulsePos ∨ p.step = .pulseNeg)

theorem State.driveState_of_starting {s : State} (h : s.ctl.mode = .starting) (c : ChanId) : s.driveState c = .unused := by
  unfold State.driveState
  rw [h]
  split <;> rfl

theorem State.wants_of_pulsing {s : State} {c : ChanId} (h : s.pulsing c) (ref : Bool) (side : Side) :
    s.wants c ref side = some (pulsesOf (s.chans.get c).mode ref side) := by
  have hm : s.ctl.mode ≠ .starting := fun e => by
    have hd := s.driveState_of_starting e c
    rcases h with h | h | ⟨h, _⟩ <;> rw [hd] at h <;> cases h
  unfold State.wants pulsesOf
  rw [if_neg hm]
  rcases h with h | h | ⟨h, p, hp, hs | hs⟩
  · rw [h]; cases (s.chans.get c).mode <;> rfl
  · rw [h]; cases (s.chans.get c).mode <;> rfl
  · rw [h, hp]; simp only [hs]; cases (s.chans.get c).mode <;> rfl
  · rw [h, hp]; simp only [hs]; cases (s.chans.get c).mode <;> rfl

theorem pulsesOf_delayed (m : ChanMode) (ref : Bool) (side : Side) :
    (pulsesOf m ref side).2.2 = true ↔ m = .complement := by
  cases m <;> simp [pulsesOf]

/-- The outputs of a channel that follows its reference (R78 to R80). -/
theorem Shows.pulses {s : State} {c : ChanId} {o u : Out} (h : Shows s c o u) (hp : s.pulsing c) :
    ((u.wantA, u.wantB) = ((pulsesOf (s.chans.get c).mode u.ref o.side).1,
        (pulsesOf (s.chans.get c).mode u.ref o.side).2.1))
    ∧ (u.pinA = .active ↔ u.wantA = true ∧ (o.pinA = .active
        ∨ (o.pinB = .active → u.wantB = false) ∧ (s.chans.get c).deadTime ≤ o.offB
          ∧ ((s.chans.get c).mode = .complement → (s.chans.get c).deadTime ≤ o.wtA)))
    ∧ (u.pinB = .active ↔ u.wantB = true ∧ (o.pinB = .active
        ∨ u.pinA ≠ .active ∧ (s.chans.get c).deadTime ≤ o.offA
          ∧ ((s.chans.get c).mode = .complement → (s.chans.get c).deadTime ≤ o.wtB)))
    ∧ (u.pinA ≠ .active → u.pinA = .inactive) ∧ (u.pinB ≠ .active → u.pinB = .inactive) := by
  obtain ⟨_, _, _, h⟩ := h
  have hw := State.wants_of_pulsing hp u.ref o.side
  have hdelay := pulsesOf_delayed (s.chans.get c).mode u.ref o.side
  generalize pulsesOf (s.chans.get c).mode u.ref o.side = w at hw hdelay
  obtain ⟨a, b, d⟩ := w
  rw [hw] at h
  obtain ⟨ha, hb, _, _, hA, hB, hA', hB', _⟩ := h
  rw [show (d = true) = ((s.chans.get c).mode = .complement) from propext hdelay] at hA hB
  rw [← ha] at hA
  rw [← hb] at hA hB
  refine ⟨Prod.ext ha hb, hA.trans ?_, hB, fun h => (hA' h).1, fun h => (hB' h).1⟩
  rw [not_and, Bool.not_eq_true]

theorem State.settleOne_eq (ch : ChanId) (s : State) : (s.settleOn fun c => decide (c = ch))
    = { s with outs := s.outs.set ch (s.settledOut ch (s.outs.get ch)) } := by
  unfold State.settleOn
  refine congrArg (fun b => { s with outs := b }) (Bank.ext_get fun c => ?_)
  by_cases hc : c = ch
  · subst hc
    simp
  · simp [hc]

/-- Settles O21. -/
theorem compareMatchMovesReference : Obligations.CompareMatchMovesReference := by
  rintro ch s g o rfl rfl
  have he : exec (.compareMatch ch) s = execCompareMatch ch s := rfl
  refine ⟨fun hr => ?_, fun hr => ?_⟩
  · rw [he, execCompareMatch, hr]
  · have hshow := s.settledOut_shows ch (s.outs.get ch)
    have hstate := s.settleOne_eq ch
    generalize s.settledOut ch (s.outs.get ch) = u at hshow hstate
    obtain ⟨-, -, href, -⟩ := id hshow
    refine ⟨u, ?_, hshow.congr rfl rfl rfl rfl rfl, fun hf => ?_, fun hf => ?_, fun hd => ?_,
      fun hw hp => ?_, fun hw hp => ?_, fun hu ho => ?_, fun hu ho => ?_⟩
    · rw [he, execCompareMatch, hr, ← hstate]
    · rw [href, if_pos ⟨hf, hr⟩]
    · rw [href, if_neg (by rw [hf]; exact fun h => Bool.false_ne_true h.1)]
      split <;> exact decide_eq_true_iff
    · obtain ⟨hwant, hA, hB, hA', hB'⟩ := hshow.pulses hd
      refine ⟨fun hm => ?_, fun hm => ?_, fun hm => ?_, hA, hB, hA', hB'⟩
      · rw [hm] at hwant
        exact Prod.mk.inj hwant
      · rw [hm] at hwant
        exact Prod.mk.inj hwant
      · rw [hm] at hwant
        exact Prod.mk.inj hwant
    · rw [hshow.wantA_of_active hp] at hw
      cases hw
    · rw [hshow.wantB_of_active hp] at hw
      cases hw
    · obtain ⟨hpartner, hoff, hdelay⟩ := hshow.riseA_guards hu ho
      refine ⟨hpartner, hoff, fun _ hm hd => hdelay u.ref (!u.ref) ?_⟩
      rw [State.wants_of_pulsing (hd.imp_right Or.inl), hm]
      rfl
    · obtain ⟨hpartner, hoff, hdelay⟩ := hshow.riseB_guards hu ho
      refine ⟨hpartner, hoff, fun _ hm hd => hdelay u.ref (!u.ref) ?_⟩
      rw [State.wants_of_pulsing (hd.imp_right Or.inl), hm]
      rfl

/-! ### The expiries -/

/-- One output rises on a record that follows its state already (R79, R80). -/
theorem State.riseOne_of_followed {s : State} {ch : ChanId} (x : OutPin)
    (hr : (s.outs.get ch).refresh s.tb = s.outs.get ch)
    (ht : (s.outs.get ch).take (s.chans.get ch).mode (s.pattern ch (s.outs.get ch)) = s.outs.get ch) :
    s.riseOne ch x = { s with outs := s.outs.set ch (match x with
      | .a => (s.outs.get ch).riseA (s.chans.get ch).deadTime (s.pattern ch (s.outs.get ch)).delayed
      | .b => (s.outs.get ch).riseB (s.chans.get ch).deadTime (s.pattern ch (s.outs.get ch)).delayed) } := by
  unfold State.riseOne
  dsimp only
  rw [hr, ht] <;> rfl

theorem State.set_own_out (s : State) (ch : ChanId) : { s with outs := s.outs.set ch (s.outs.get ch) } = s := by
  rw [Bank.set_get]

/-- The two expiry commands raise one output where they are not held back (R79, R80). -/
theorem exec_expiries {s : State} (hf : s.tb.frameEndDue = false) (ch : ChanId) (x : OutPin) :
    exec (.deadTimeExpiry ch x) s = .next (s.riseOne ch x)
    ∧ ((s.chans.get ch).mode = .complement → exec (.wantedTimeExpiry ch x) s = .next (s.riseOne ch x))
    ∧ (s.riseOne ch x = s → exec (.wantedTimeExpiry ch x) s = .next s) := by
  have hd : exec (.deadTimeExpiry ch x) s = if s.tb.frameEndDue then .next s else .next (s.riseOne ch x) := rfl
  have hw : exec (.wantedTimeExpiry ch x) s = if (s.chans.get ch).mode = .complement ∧ s.tb.frameEndDue = false then
      .next (s.riseOne ch x) else .next s := rfl
  refine ⟨hd.trans (if_neg (by rw [hf]; exact Bool.false_ne_true)), fun hm => hw.trans (if_pos ⟨hm, hf⟩), fun he => ?_⟩
  rw [hw, he, ite_self]

/-- Settles O22. -/
theorem expiriesRaiseOutputs : Obligations.ExpiriesRaiseOutputs := by
  rintro ch s g o rfl rfl
  refine ⟨fun hf x => ⟨if_pos hf, if_neg ?_⟩, fun hm x => if_neg fun h => hm h.1, fun hf hr ht => ⟨fun hw ho => ?_, fun hw ho => ?_⟩⟩
  · rw [hf]
    exact fun h => Bool.noConfusion h.2
  · obtain ⟨hdead, hwanted, hnone⟩ := exec_expiries hf ch .a
    have hrise := State.riseOne_of_followed .a hr ht
    refine ⟨fun hg => ?_, fun hg => ?_⟩
    · have hmay := (Out.mayRiseA_iff _ _ _).2 ⟨hw, hg⟩
      rw [Out.riseA, if_pos hmay] at hrise
      rw [hdead, hrise]
      exact ⟨rfl, fun hm => (hwanted hm).trans (by rw [hrise])⟩
    · have hmay := fun h => hg ((Out.mayRiseA_iff _ _ _).1 h).2
      rw [Out.riseA, if_neg hmay, s.set_own_out] at hrise
      rw [hdead, hnone hrise, hrise]
      exact ⟨rfl, rfl⟩
  · obtain ⟨hdead, hwanted, hnone⟩ := exec_expiries hf ch .b
    have hrise := State.riseOne_of_followed .b hr ht
    refine ⟨fun hg => ?_, fun hg => ?_⟩
    · have hmay := (Out.mayRiseB_iff _ _ _).2 ⟨hw, hg⟩
      rw [Out.riseB, if_pos hmay] at hrise
      rw [hdead, hrise]
      exact ⟨rfl, fun hm => (hwanted hm).trans (by rw [hrise])⟩
    · have hmay := fun h => hg ((Out.mayRiseB_iff _ _ _).1 h).2
      rw [Out.riseB, if_neg hmay, s.set_own_out] at hrise
      rw [hdead, hnone hrise, hrise]
      exact ⟨rfl, rfl⟩

end Sys2Proof.Machine
end

section
/-! SUPPORT. Checks made in order, code tables read back, CONFIG_WRITE and POST. -/

namespace Sys2Proof.Machine

/-! ### Checks made in order -/

/-- The result of checks made in the order of their numbers, from number `k` on: the first that fails, or, where none
does, a value of which `good` holds. -/
def ChecksFrom {α : Type} (fails : Nat → Prop) (good : α → Prop) (k : Nat) : Except Nat α → Prop
  | .error n => k ≤ n ∧ fails n ∧ ∀ m, k ≤ m → m < n → ¬fails m
  | .ok a => (∀ m, k ≤ m → ¬fails m) ∧ good a

theorem ChecksFrom.fail {α : Type} {fails : Nat → Prop} {good : α → Prop} {k : Nat} (h : fails k) :
    ChecksFrom fails good k (.error k) := ⟨le_rfl, h, fun _ hkm hmk => absurd hmk (Nat.not_lt.2 hkm)⟩

/-- A check that passes hands on to the next. -/
theorem ChecksFrom.pass {α : Type} {fails : Nat → Prop} {good : α → Prop} {k : Nat} {e : Except Nat α}
    (hk : ¬fails k) (h : ChecksFrom fails good (k + 1) e) : ChecksFrom fails good k e := by
  have hlow : ∀ m, k ≤ m → m < k + 1 → ¬fails m := fun m h1 h2 => by
    rwa [show m = k by omega]
  cases e with
  | error n =>
    obtain ⟨hkn, hn, hfirst⟩ := h
    refine ⟨Nat.le_of_succ_le hkn, hn, fun m hkm hmn => ?_⟩
    by_cases hm : k + 1 ≤ m
    · exact hfirst m hm hmn
    · exact hlow m hkm (Nat.lt_of_not_le hm)
  | ok a =>
    obtain ⟨hall, hgood⟩ := h
    refine ⟨fun m hkm => ?_, hgood⟩
    by_cases hm : k + 1 ≤ m
    · exact hall m hm
    · exact hlow m hkm (Nat.lt_of_not_le hm)

/-- The first check that fails is the one reported. -/
theorem ChecksFrom.eq_error {α : Type} {fails : Nat → Prop} {good : α → Prop} {k n : Nat} {e : Except Nat α}
    (h : ChecksFrom fails good k e) (hk : k ≤ n) (hn : fails n) (hfirst : ∀ m < n, ¬fails m) : e = .error n := by
  cases e with
  | error m =>
    obtain ⟨_, hm, hall⟩ := h
    have : m = n := by
      rcases Nat.lt_trichotomy m n with hlt | heq | hgt
      · exact absurd hm (hfirst m hlt)
      · exact heq
      · exact absurd hn (hall n hk hgt)
    rw [this]
  | ok a => exact absurd hn (h.1 n hk)

theorem ChecksFrom.eq_ok {α : Type} {fails : Nat → Prop} {good : α → Prop} {k : Nat} {e : Except Nat α}
    (h : ChecksFrom fails good k e) (hall : ∀ n, ¬fails n) : ∃ a, e = .ok a ∧ good a := by
  cases e with
  | error m => exact absurd h.2.1 (hall m)
  | ok a => exact ⟨a, rfl, h.2⟩

/-! ### Code tables read back -/

/-- A table of codes 0 to `bound`: reading takes those codes alone, and each value back to its code. -/
def Coded {α : Type} (ofCode : Nat → Option α) (code : α → Nat) (bound : Nat) : Prop :=
  ∀ n, (ofCode n = none ↔ bound < n) ∧ ∀ x, ofCode n = some x → code x = n

theorem Coded.one {α : Type} {ofCode : Nat → Option α} {code : α → Nat} {a b : α} (h0 : ofCode 0 = some a)
    (h1 : ofCode 1 = some b) (hrest : ∀ n, ofCode (n + 2) = none) (ha : code a = 0) (hb : code b = 1) :
    Coded ofCode code 1 := by
  intro n
  match n with
  | 0 => rw [h0]; exact ⟨by simp, fun x hx => by cases hx; exact ha⟩
  | 1 => rw [h1]; exact ⟨by simp, fun x hx => by cases hx; exact hb⟩
  | n + 2 => rw [hrest]; exact ⟨by simp, fun x hx => by cases hx⟩

theorem Coded.two {α : Type} {ofCode : Nat → Option α} {code : α → Nat} {a b c : α} (h0 : ofCode 0 = some a)
    (h1 : ofCode 1 = some b) (h2 : ofCode 2 = some c) (hrest : ∀ n, ofCode (n + 3) = none) (ha : code a = 0)
    (hb : code b = 1) (hc : code c = 2) : Coded ofCode code 2 := by
  intro n
  match n with
  | 0 => rw [h0]; exact ⟨by simp, fun x hx => by cases hx; exact ha⟩
  | 1 => rw [h1]; exact ⟨by simp, fun x hx => by cases hx; exact hb⟩
  | 2 => rw [h2]; exact ⟨by simp, fun x hx => by cases hx; exact hc⟩
  | n + 3 => rw [hrest]; exact ⟨by simp, fun x hx => by cases hx⟩

theorem Polarity.coded : Coded Polarity.ofOutCode Polarity.outCode 1 := .one rfl rfl (fun _ => rfl) rfl rfl
theorem Level.coded : Coded Level.ofCode Level.code 1 := .one rfl rfl (fun _ => rfl) rfl rfl
theorem EndStop.coded : Coded EndStop.ofCode EndStop.code 1 := .one rfl rfl (fun _ => rfl) rfl rfl
theorem SafePattern.coded : Coded SafePattern.ofCode SafePattern.code 2 := .two rfl rfl rfl (fun _ => rfl) rfl rfl rfl
theorem SenseEdge.coded : Coded SenseEdge.ofCode SenseEdge.code 2 := .two rfl rfl rfl (fun _ => rfl) rfl rfl rfl
theorem AccMode.coded : Coded AccMode.ofCode AccMode.code 2 := .two rfl rfl rfl (fun _ => rfl) rfl rfl rfl

section
variable {α : Type} {ofCode : Nat → Option α} {code : α → Nat} {bound : Nat}

theorem Coded.gt (h : Coded ofCode code bound) {n : Nat} (hn : ofCode n = none) : bound < n := (h n).1.1 hn

theorem Coded.le (h : Coded ofCode code bound) {n : Nat} {x : α} (hn : ofCode n = some x) : n ≤ bound := by
  refine Nat.not_lt.1 fun hlt => ?_
  rw [(h n).1.2 hlt] at hn
  cases hn

theorem Coded.natByte (h : Coded ofCode code bound) {b : Byte} {x : α} (hb : ofCode b.toNat = some x) :
    natByte (code x) = b := natByte_of_toNat ((h _).2 x hb).symm

end

/-! ### Fields read back -/

theorem wordBytes_append (h l : Half) : wordBytes (h ++ l) = halfBytes l ++ halfBytes h := by
  unfold wordBytes halfBytes
  rw [BitVec.extractLsb'_append_eq_of_add_le (by decide), BitVec.extractLsb'_append_eq_of_add_le (by decide),
    BitVec.extractLsb'_append_eq_of_le (by decide), BitVec.extractLsb'_append_eq_of_le (by decide)]
  rfl

theorem wordBytes_wordAt (body : List Byte) (i : Nat) :
    wordBytes (wordAt body i) = [byteAt body i, byteAt body (i + 1), byteAt body (i + 2), byteAt body (i + 3)] := by
  rw [wordAt, wordBytes_append, halfAt, halfAt, halfBytes_append, halfBytes_append]
  rfl

theorem intHalf_halfAt (body : List Byte) (i : Nat) :
    intHalf (halfAt body i).toInt = [byteAt body i, byteAt body (i + 1)] := by
  rw [intHalf, BitVec.ofInt_toInt]
  exact halfBytes_append ..

/-- A body is its bytes, one by one. -/
theorem eq_map_byteAt {body : List Byte} {n : Nat} (h : body.length = n) : body = (List.range n).map (byteAt body) := by
  subst h
  refine List.ext_getElem (by simp) fun i hi _ => ?_
  simp [byteAt, List.getD_eq_getElem?_getD, hi]

/-! ### CONFIG_WRITE -/

/-- What an accepted CONFIG_WRITE body is read as: its channel, and a configuration that gives its bytes back. -/
def ConfigReads (body : List Byte) (x : ChanId × ChanCfg) : Prop :=
  (byteAt body 0).toNat = x.1.val
  ∧ x.2.bytes = [byteAt body 1, byteAt body 2, byteAt body 3, byteAt body 4, byteAt body 5, byteAt body 6,
      byteAt body 7, byteAt body 8, byteAt body 9, byteAt body 10, byteAt body 11, byteAt body 12, byteAt body 13,
      byteAt body 14, byteAt body 15, byteAt body 16, byteAt body 17, byteAt body 18]
  ∧ x.2.filter ≤ 15 ∧ x.2.ClampsOk

/-- The checks of R48 in their order: each branch of `configAt` is one field. -/
theorem configAt_checks (body : List Byte) : ChecksFrom (configFails body) (ConfigReads body) 1 (configAt body) := by
  unfold configAt
  dsimp only
  cases h0 : chanOf (byteAt body 0) with
  | none => exact .fail (show 15 < (byteAt body 0).toNat from chanOf_eq_none.1 h0)
  | some c =>
  have hc : (byteAt body 0).toNat = c.val := chanOf_eq_some.1 h0
  refine .pass (show ¬15 < (byteAt body 0).toNat by omega) ?_
  cases h1 : Polarity.ofOutCode (byteAt body 1).toNat with
  | none => exact .fail (Or.inl (Polarity.coded.gt h1))
  | some pa =>
  cases h2 : Polarity.ofOutCode (byteAt body 2).toNat with
  | none => exact .fail (Or.inr (Polarity.coded.gt h2))
  | some pb =>
  refine .pass (not_or.2 ⟨Nat.not_lt.2 (Polarity.coded.le h1), Nat.not_lt.2 (Polarity.coded.le h2)⟩) ?_
  cases h3 : SafePattern.ofCode (byteAt body 3).toNat with
  | none => exact .fail (SafePattern.coded.gt h3)
  | some safe =>
  refine .pass (Nat.not_lt.2 (SafePattern.coded.le h3)) ?_
  cases h4 : SenseEdge.ofCode (byteAt body 4).toNat with
  | none => exact .fail (SenseEdge.coded.gt h4)
  | some edge =>
  refine .pass (Nat.not_lt.2 (SenseEdge.coded.le h4)) ?_
  by_cases h5 : 15 < (byteAt body 5).toNat
  · simp only [if_pos h5]
    exact .fail h5
  simp only [if_neg h5]
  refine .pass h5 ?_
  cases h6 : EndStop.ofCode (byteAt body 6).toNat with
  | none => exact .fail (EndStop.coded.gt h6)
  | some stop =>
  refine .pass (Nat.not_lt.2 (EndStop.coded.le h6)) ?_
  cases h7 : AccMode.ofCode (byteAt body 7).toNat with
  | none => exact .fail (AccMode.coded.gt h7)
  | some acc =>
  refine .pass (Nat.not_lt.2 (AccMode.coded.le h7)) ?_
  by_cases h8 : (halfAt body 12).toInt < -Config.fullLevel ∨ 0 < (halfAt body 12).toInt
  · simp only [if_pos h8]
    exact .fail h8
  simp only [if_neg h8]
  refine .pass h8 ?_
  by_cases h9 : (halfAt body 14).toInt < 0 ∨ Config.fullLevel < (halfAt body 14).toInt
  · simp only [if_pos h9]
    exact .fail h9
  simp only [if_neg h9]
  refine .pass h9 ?_
  cases hi : Level.ofCode (byteAt body 16).toNat with
  | none => exact .fail (Or.inl (Level.coded.gt hi))
  | some ei =>
  cases ha : Level.ofCode (byteAt body 17).toNat with
  | none => exact .fail (Or.inr (Or.inl (Level.coded.gt ha)))
  | some ea =>
  cases hb : Level.ofCode (byteAt body 18).toNat with
  | none => exact .fail (Or.inr (Or.inr (Level.coded.gt hb)))
  | some eb =>
  have h10 : ¬configFails body 10 := by
    have := Level.coded.le hi
    have := Level.coded.le ha
    have := Level.coded.le hb
    show ¬(1 < (byteAt body 16).toNat ∨ 1 < (byteAt body 17).toNat ∨ 1 < (byteAt body 18).toNat)
    omega
  refine .pass h10 ⟨fun m hm => ?_, hc, ?_, Nat.not_lt.1 h5, ?_⟩
  · obtain ⟨j, rfl⟩ := Nat.exists_eq_add_of_le' hm
    exact id
  · simp only [ChanCfg.bytes, Polarity.coded.natByte h1, Polarity.coded.natByte h2, SafePattern.coded.natByte h3,
      SenseEdge.coded.natByte h4, natByte_toNat, EndStop.coded.natByte h6, AccMode.coded.natByte h7, wordBytes_wordAt,
      intHalf_halfAt, Level.coded.natByte hi, Level.coded.natByte ha, Level.coded.natByte hb]
    rfl
  · unfold Config.fullLevel at h8 h9
    unfold ChanCfg.ClampsOk
    dsimp only
    omega

/-- A configuration written at once, with the pins of its channel (R49, R85, R130). -/
theorem State.writeConfig_shows (c : ChanId) (g : ChanCfg) (s : State) :
    Shows (s.writeConfig c g) c (s.outs.get c) ((s.writeConfig c g).outs.get c)
    ∧ ∀ d, d ≠ c → (s.writeConfig c g).outs.get d = s.outs.get d := by
  refine ⟨State.settleOn_shows (fun d => decide (d = c)) _ c (by simp), fun d hd => ?_⟩
  simp [State.writeConfig, State.settleOn, hd]

/-- The pins of a channel that is TRIPPED, by its safe pattern (R82, R84). -/
theorem Shows.tripped {s : State} {c : ChanId} {o u : Out} (h : Shows s c o u) (hd : s.driveState c = .tripped) :
    ((s.chans.get c).cfg.safe = .inactive → u.pinA = .inactive ∧ u.pinB = .inactive)
    ∧ ((s.chans.get c).cfg.safe = .float → u.pinA = .released ∧ u.pinB = .released) := by
  have hm : s.ctl.mode ≠ .starting := fun e => by
    rw [s.driveState_of_starting e c] at hd
    cases hd
  refine ⟨fun hs => h.inactive (d := false) fun ref side => ?_, fun hs => h.released fun ref side => ?_⟩
  · rw [State.wants, if_neg hm, hd, hs]
    rfl
  · rw [State.wants, if_neg hm, hd, hs]
    rfl

/-- Settles O38. -/
theorem configWriteActiveOrPending : Obligations.ConfigWriteActiveOrPending := by
  intro tag body s hr hlen hm hlockc hlock
  obtain ⟨t, he, ht⟩ := exec_take (k := .configWrite) rfl hr rfl
    ⟨by simpa [ReqKind.lenOk] using hlen, inModes_setup_run hm, rfl, by rw [ReqKind.locked, hlockc, hlock]; rfl⟩
    (c := .configWrite tag body)
  have hchecks := configAt_checks body
  refine ⟨fun n hn hfirst => ⟨t, he, ht.of_answer ?_⟩, fun hall c hc => ?_⟩
  · have h1 : 1 ≤ n := by
      rcases Nat.eq_zero_or_pos n with rfl | h
      · exact hn.elim
      · exact h
    show s.takeConfigWrite body = _
    rw [State.takeConfigWrite, hchecks.eq_error h1 hn hfirst]
    rfl
  · obtain ⟨⟨c', g⟩, hok, hc', hbytes, hfilter, hclamps⟩ := hchecks.eq_ok hall
    obtain rfl : c' = c := Fin.ext (hc'.symm.trans hc)
    have htake : s.takeConfigWrite body = if s.ctl.mode = .run then .ok (1 :: wordBytes s.tb.bnum) (s.stageConfig c' g)
        else .ok (0 :: wordBytes 0) (s.writeConfig c' g) := by
      rw [State.takeConfigWrite, hok]
    refine ⟨t, g, he, ?_, hfilter, hclamps, fun hset => ?_, fun hrun => ht.of_answer (htake.trans (if_pos hrun))⟩
    · rw [eq_map_byteAt hlen]
      exact hbytes
    · have hta : Taken (.configWrite tag body) .ok [0, 0, 0, 0, 0] (s.writeConfig c' g) t :=
        ht.of_answer (htake.trans (if_neg (by rw [hset]; exact OpMode.noConfusion)))
      obtain ⟨hshow, hkeep⟩ := s.writeConfig_shows c' g
      rw [hta.outs]
      refine ⟨hta, Shows.linkFree hta.linkFree hshow, fun hu hl => ?_, hkeep⟩
      have hd : (s.writeConfig c' g).driveState c' = .tripped := by
        have hu' : (s.writeConfig c' g).used c' = true := by
          rw [State.used_iff]
          simpa [State.writeConfig] using hu
        rw [State.driveState, if_pos hu']
        simp [State.writeConfig, hset, State.latched, hl]
      have hsafe : ((s.writeConfig c' g).chans.get c').cfg.safe = g.safe := by simp [State.writeConfig]
      obtain ⟨hin, hfl⟩ := hshow.tripped hd
      rw [hsafe] at hin hfl
      exact ⟨(State.driveState_linkFree hta.linkFree c').trans hd, hin, hfl⟩

end Sys2Proof.Machine
end

section
/-! SUPPORT. POST: the checks of its records in order, and the batch applied whole. -/

namespace Sys2Proof.Machine

/-- A check made by a condition (the rest is checked where it passes). -/
theorem ChecksFrom.test {α : Type} {fails : Nat → Prop} {good : α → Prop} {k : Nat} {e : Except Nat α} {p : Prop}
    [Decidable p] (hp : fails k ↔ p) (h : ¬p → ChecksFrom fails good (k + 1) e) :
    ChecksFrom fails good k (if p then .error k else e) := by
  by_cases hc : p
  · rw [if_pos hc]
    exact .fail (hp.2 hc)
  · rw [if_neg hc]
    exact .pass (fun hf => hc (hp.1 hf)) (h hc)

/-! ### The record checks -/

theorem Drive.coded : Coded Drive.ofCode Drive.code 2 := .two rfl rfl rfl (fun _ => rfl) rfl rfl rfl

theorem Drive.ofCode_eq {v : Half} {d : Drive} (h : Drive.ofCode v.toNat = some d) :
    d = if v = 0 then .off else if v = 1 then .on else .brake := by
  have hcode := (Drive.coded v.toNat).2 d h
  have h0 : v = 0 ↔ v.toNat = 0 := ⟨fun e => by rw [e]; rfl, fun e => BitVec.eq_of_toNat_eq e⟩
  have h1 : v = 1 ↔ v.toNat = 1 := ⟨fun e => by rw [e]; rfl, fun e => BitVec.eq_of_toNat_eq e⟩
  rw [if_congr h0 rfl (if_congr h1 rfl rfl), ← hcode]
  cases d <;> rfl

theorem inLevelRange_iff (v : Int) : inLevelRange v = true ↔ ¬(v < -10000 ∨ 10000 < v) := by
  rw [inLevelRange, Bool.and_eq_true, decide_eq_true_eq, decide_eq_true_eq, not_or, Int.not_lt, Int.not_lt]
  rfl

section
variable {s : State} {r : PostRec} {c : ChanId}

/-- The two checks of R22 that read the channel's mode. -/
theorem recordFails_negative (hc : r.channel.toNat = c.val) (k : Prop) :
    (k ∧ r.value.toInt < 0 ∧ ∃ d : ChanId, r.channel.toNat = d.val ∧ (s.chans.get d).mode ≠ .directional)
      ↔ k ∧ r.value.toInt < 0 ∧ (s.chans.get c).mode ≠ .directional := by
  refine and_congr_right fun _ => and_congr_right fun _ => ⟨?_, fun h => ⟨c, hc, h⟩⟩
  rintro ⟨d, hd, h⟩
  rwa [Fin.ext (hd.symm.trans hc)] at h

/-- Checks 3 to 10 of R22 in their order: each branch of `checkSetpoint` is one check (R22). -/
theorem checkSetpoint_checks (hc : r.channel.toNat = c.val) : ChecksFrom (recordFails s r)
    (fun sp => sp = (recordPosting r).setpoint) 3 (checkSetpoint (s.chans.get c).mode r) := by
  have hpost : (recordPosting r).setpoint = (match r.kind.toNat with
      | 0 => .level r.value.toInt
      | 1 => .ramp r.value.toInt r.extra.toNat
      | 2 => .drive (if r.value = 0 then .off else if r.value = 1 then .on else .brake)
      | _ => .clamp r.value.toInt r.extra.toInt) := rfl
  have h5 : recordFails s r 5 ↔ r.kind.toNat ≤ 1 ∧ (!inLevelRange r.value.toInt) = true := by
    rw [Bool.not_eq_true', ← Bool.not_eq_true, inLevelRange_iff, not_not]
    exact Iff.rfl
  have h6 : recordFails s r 6 ↔ r.kind.toNat ≤ 1 ∧ r.value.toInt < 0 ∧ (s.chans.get c).mode ≠ .directional :=
    recordFails_negative hc _
  have h7 : recordFails s r 7 ↔ r.kind.toNat = 1 ∧ (r.extra.toNat < 1 ∨ 10000 < r.extra.toNat) := Iff.rfl
  have h8 : recordFails s r 8 ↔ r.kind.toNat = 2 ∧ 2 < r.value.toNat := Iff.rfl
  have h9 : recordFails s r 9 ↔ r.kind.toNat = 3 ∧ (r.value.toInt < -Config.fullLevel ∨ 0 < r.value.toInt
    ∨ r.extra.toInt < 0 ∨ Config.fullLevel < r.extra.toInt) := Iff.rfl
  have h10 : recordFails s r 10 ↔ r.kind.toNat = 3 ∧ r.value.toInt < 0 ∧ (s.chans.get c).mode ≠ .directional :=
    recordFails_negative hc _
  have hdone : ∀ sp, sp = (recordPosting r).setpoint → ChecksFrom (recordFails s r)
      (fun sp => sp = (recordPosting r).setpoint) 11 (.ok sp) := fun sp hsp => by
    refine ⟨fun m hm => ?_, hsp⟩
    obtain ⟨j, rfl⟩ := Nat.exists_eq_add_of_le' hm
    exact id
  refine .test Iff.rfl fun h3 => .test Iff.rfl fun _ => ?_
  obtain hk | hk | hk | hk : r.kind.toNat = 0 ∨ r.kind.toNat = 1 ∨ r.kind.toNat = 2 ∨ r.kind.toNat = 3 := by omega
  all_goals simp only [hk] at h5 h6 h7 h8 h9 h10 hpost ⊢
  · refine .test (h5.trans (and_iff_right (by decide))) fun _ => .test (h6.trans (and_iff_right (by decide))) fun _ => ?_
    refine .pass (fun h => absurd (h7.1 h).1 (by decide)) (.pass (fun h => absurd (h8.1 h).1 (by decide)) ?_)
    exact .pass (fun h => absurd (h9.1 h).1 (by decide)) (.pass (fun h => absurd (h10.1 h).1 (by decide))
      (hdone _ hpost.symm))
  · refine .test (h5.trans (and_iff_right (by decide))) fun _ => .test (h6.trans (and_iff_right (by decide))) fun _ => ?_
    refine .test (h7.trans (and_iff_right trivial)) fun _ => .pass (fun h => absurd (h8.1 h).1 (by decide)) ?_
    exact .pass (fun h => absurd (h9.1 h).1 (by decide)) (.pass (fun h => absurd (h10.1 h).1 (by decide))
      (hdone _ hpost.symm))
  · refine .pass (fun h => absurd (h5.1 h).1 (by decide)) (.pass (fun h => absurd (h6.1 h).1 (by decide)) ?_)
    refine .pass (fun h => absurd (h7.1 h).1 (by decide)) ?_
    cases hd : Drive.ofCode r.value.toNat with
    | none => exact .fail (h8.2 ⟨trivial, Drive.coded.gt hd⟩)
    | some d =>
      refine .pass (fun h => absurd (h8.1 h).2 (Nat.not_lt.2 (Drive.coded.le hd))) ?_
      refine .pass (fun h => absurd (h9.1 h).1 (by decide)) (.pass (fun h => absurd (h10.1 h).1 (by decide))
        (hdone _ ?_))
      rw [hpost, Drive.ofCode_eq hd]
  · refine .pass (fun h => absurd (h5.1 h).1 (by decide)) (.pass (fun h => absurd (h6.1 h).1 (by decide)) ?_)
    refine .pass (fun h => absurd (h7.1 h).1 (by decide)) (.pass (fun h => absurd (h8.1 h).1 (by decide)) ?_)
    exact .test (h9.trans (and_iff_right trivial)) fun _ => .test (h10.trans (and_iff_right trivial)) fun _ => hdone _ hpost.symm

end

/-- The ten checks of R22 by their numbers (R22). -/
def State.recordCheck (s : State) (r : PostRec) : Except Nat Posting :=
  match chanOf r.channel with
  | none => .error 1
  | some c =>
    if !s.used c then .error 1
    else if s.latched c then .error 2
    else
      match checkSetpoint (s.chans.get c).mode r with
      | .error n => .error n
      | .ok sp => .ok { channel := c, setpoint := sp, delay := r.delay.toNat }

theorem State.recordCheck_checks (s : State) (r : PostRec) :
    ChecksFrom (recordFails s r) (· = recordPosting r) 1 (s.recordCheck r) := by
  unfold State.recordCheck
  cases hch : chanOf r.channel with
  | none =>
    have h16 := chanOf_eq_none.1 hch
    refine .fail ?_
    rintro ⟨c, hc, _⟩
    omega
  | some c =>
    have hc := chanOf_eq_some.1 hch
    have honly : ∀ d : ChanId, r.channel.toNat = d.val → d = c := fun d hd => Fin.ext (hd.symm.trans hc)
    have h1 : recordFails s r 1 ↔ (!s.used c) = true := by
      rw [Bool.not_eq_true', ← Bool.not_eq_true, State.used_iff]
      exact not_congr ⟨fun ⟨d, hd, hu⟩ => honly d hd ▸ hu, fun hu => ⟨c, hc, hu⟩⟩
    have h2 : recordFails s r 2 ↔ s.latched c = true :=
      ⟨fun ⟨d, hd, hl⟩ => honly d hd ▸ hl, fun hl => ⟨c, hc, hl⟩⟩
    refine .test h1 fun _ => .test h2 fun _ => ?_
    have hset := checkSetpoint_checks (s := s) (r := r) hc
    revert hset
    cases checkSetpoint (s.chans.get c).mode r with
    | error n => exact id
    | ok sp =>
      rintro ⟨hall, rfl⟩
      have hfin : Fin.ofNat 16 r.channel.toNat = c := by
        rw [hc]
        exact Fin.ofNat_val_eq_self c
      refine ⟨hall, ?_⟩
      show _ = Posting.mk (Fin.ofNat 16 r.channel.toNat) (recordPosting r).setpoint r.delay.toNat
      rw [hfin]

/-- The result of a refused record is TRIPPED for check 2 alone (R22, R23). -/
theorem State.checkRecord_eq (s : State) (r : PostRec) : s.checkRecord r = match s.recordCheck r with
    | .error n => .error (if n = 2 then .tripped else .badArg, n)
    | .ok p => .ok p := by
  unfold State.checkRecord State.recordCheck
  cases hch : chanOf r.channel with
  | none => rfl
  | some c =>
    dsimp only
    by_cases hu : (!s.used c) = true
    · rw [if_pos hu, if_pos hu]
      rfl
    rw [if_neg hu, if_neg hu]
    by_cases hl : s.latched c = true
    · rw [if_pos hl, if_pos hl]
      rfl
    rw [if_neg hl, if_neg hl]
    have hset := checkSetpoint_checks (s := s) (r := r) (chanOf_eq_some.1 hch)
    revert hset
    cases checkSetpoint (s.chans.get c).mode r with
    | error n =>
      rintro ⟨h3, _⟩
      show _ = Except.error (if n = 2 then _ else _, n)
      rw [if_neg (by omega)]
    | ok sp => exact fun _ => rfl

theorem State.checkRecord_of_first {s : State} {r : PostRec} {n : Nat} (hn : recordFails s r n)
    (hfirst : ∀ m < n, ¬recordFails s r m) :
    s.checkRecord r = .error (if n = 2 then .tripped else .badArg, n) := by
  have h1 : 1 ≤ n := by
    rcases Nat.eq_zero_or_pos n with rfl | h
    · exact hn.elim
    · exact h
  rw [s.checkRecord_eq, (s.recordCheck_checks r).eq_error h1 hn hfirst]

theorem State.checkRecord_of_all {s : State} {r : PostRec} (hall : ∀ n, ¬recordFails s r n) :
    s.checkRecord r = .ok (recordPosting r) := by
  obtain ⟨p, hp, hgood⟩ := (s.recordCheck_checks r).eq_ok hall
  rw [s.checkRecord_eq, hp, hgood]

/-- A batch is refused for the first record that fails a check (R22, R23). -/
theorem State.checkRecords_of_first {s : State} {r : PostRec} {res : Result} {n : Nat}
    (hr : s.checkRecord r = .error (res, n)) (rs : List PostRec) (i k : Nat) (hi : rs[i]? = some r)
    (hbefore : ∀ j < i, ∀ q, rs[j]? = some q → ∀ m, ¬recordFails s q m) :
    s.checkRecords k rs = .error (res, k + i, n) := by
  induction rs generalizing i k with
  | nil => simp at hi
  | cons q qs ih =>
    unfold State.checkRecords
    cases i with
    | zero =>
      cases hi
      rw [hr]
      rfl
    | succ i =>
      have hrest := ih i (k + 1) hi fun j hj q hq => hbefore (j + 1) (by omega) q hq
      rw [State.checkRecord_of_all (hbefore 0 (Nat.succ_pos i) q rfl), hrest]
      show Except.error (res, k + 1 + i, n) = _
      rw [Nat.add_assoc, Nat.add_comm 1 i]

theorem State.checkRecords_of_all {s : State} (rs : List PostRec) (k : Nat)
    (hall : ∀ r ∈ rs, ∀ n, ¬recordFails s r n) : s.checkRecords k rs = .ok (rs.map recordPosting) := by
  induction rs generalizing k with
  | nil => rfl
  | cons q qs ih =>
    unfold State.checkRecords
    rw [State.checkRecord_of_all (hall q (List.mem_cons_self ..)),
      ih (k + 1) fun r hr => hall r (List.mem_cons_of_mem _ hr)]
    rfl

theorem postLenOk {body : List Byte} (h8 : body.length % 8 = 0) (hlo : 8 ≤ body.length) (hhi : body.length ≤ 48) :
    ReqKind.lenOk .post body = true := by
  simp [ReqKind.lenOk, h8, hlo, hhi]

/-- Settles O40. -/
theorem postChecksRecordsInOrder : Obligations.PostChecksRecordsInOrder := by
  intro tag body s hr hm h8 hlo hhi i n r hi hn hfirst hbefore
  obtain ⟨t, he, ht⟩ := exec_take (k := .post) rfl hr rfl ⟨postLenOk h8 hlo hhi, inModes_of_run hm, rfl, rfl⟩
    (c := .post tag body)
  refine ⟨t, he, ht.of_answer ?_⟩
  show s.takePost body = _
  rw [State.takePost, State.checkRecords_of_first (State.checkRecord_of_first hn hfirst) _ i 0 hi hbefore, Nat.zero_add]
  rfl

/-! ### The batch -/

/-- The state after a batch of postings that leaves the entries `es` (R25, R30). -/
def State.posted (es : List Entry) (s : State) : State := { s with
  queue := { s.queue with
    entries := es
    hold := s.queue.hold || decide (s.queue.entries.length < es.length ∧ s.queue.holdAt ≤ es.length) }
  link := if s.queue.hold = false ∧ s.queue.entries.length < es.length ∧ s.queue.holdAt ≤ es.length then
      s.link.offer (.flow true) else s.link }

theorem State.posted_self (s : State) : s.posted s.queue.entries = s := by
  simp [State.posted]

/-- Batches applied one after the other are one batch (R25). -/
theorem State.posted_posted (s : State) {es fs : List Entry} (h1 : s.queue.entries.length ≤ es.length)
    (h2 : es.length ≤ fs.length) (hstep : es.length ≤ s.queue.entries.length + 1) :
    (s.posted es).posted fs = s.posted fs := by
  by_cases hh : s.queue.hold = true
  · simp [State.posted, hh]
  have hf : s.queue.hold = false := by simpa using hh
  by_cases hg : s.queue.entries.length < es.length ∧ s.queue.holdAt ≤ es.length
  · have hg' : s.queue.entries.length < fs.length ∧ s.queue.holdAt ≤ fs.length := by omega
    simp [State.posted, hf, hg, hg']
  · have hiff : (es.length < fs.length ∧ s.queue.holdAt ≤ fs.length)
        ↔ (s.queue.entries.length < fs.length ∧ s.queue.holdAt ≤ fs.length) := by omega
    simp only [State.posted, hf, hg, decide_false, Bool.or_false, and_false, if_false, true_and]
    simp only [hiff] <;> rfl

theorem State.insert_eq_posted (o : Origin) (p : Posting) (s : State) :
    s.insert o p = s.posted (afterPosting o s.queue.entries p) := by
  unfold State.insert afterPosting
  by_cases h : (s.queue.entries.any fun e => decide (e.key = p.key)) = true
  · rw [if_pos h, PostingQueue.holdsKey, if_pos h]
    simp only [State.posted, List.length_map, lt_self_iff_false, false_and, and_false, decide_false, Bool.or_false,
      if_false]
    rfl
  · rw [if_neg h, PostingQueue.holdsKey, if_neg h, State.holdAfterAppend_eq]
    simp only [State.posted, List.length_append, List.length_singleton, Nat.lt_succ_self, true_and]
    rfl

theorem afterPosting_foldl_length (o : Origin) (ps : List Posting) (es : List Entry) :
    es.length ≤ (ps.foldl (afterPosting o) es).length := by
  induction ps generalizing es with
  | nil => exact le_rfl
  | cons p ps ih =>
    have h := afterPosting_length o es p
    have := ih (afterPosting o es p)
    rw [List.foldl_cons]
    omega

/-- A batch, applied record by record (R25, R196). -/
theorem State.insertAll_eq (o : Origin) (ps : List Posting) (s : State) :
    s.insertAll o ps = (dispositions o s.queue.entries ps, s.posted (ps.foldl (afterPosting o) s.queue.entries)) := by
  induction ps generalizing s with
  | nil => rw [List.foldl_nil, s.posted_self]; rfl
  | cons p ps ih =>
    have h := afterPosting_length o s.queue.entries p
    have hle := afterPosting_foldl_length o ps (afterPosting o s.queue.entries p)
    have hentries : (s.posted (afterPosting o s.queue.entries p)).queue.entries = afterPosting o s.queue.entries p := rfl
    unfold State.insertAll
    rw [ih, State.insert_eq_posted, hentries, State.posted_posted _ (by omega) hle (by omega)]
    rfl

/-- A posting leaves the keys held, and adds its own where it was not (R20). -/
theorem afterPosting_keys (o : Origin) (es : List Entry) (p : Posting) : (afterPosting o es p).map Entry.key =
    if es.any fun e => decide (e.key = p.key) then es.map Entry.key else es.map Entry.key ++ [p.key] := by
  unfold afterPosting
  split
  · rw [List.map_map]
    refine List.map_congr_left fun e _ => ?_
    show Entry.key (if e.key = p.key then _ else _) = _
    split
    · next hep =>
      obtain ⟨_, hkind⟩ := Prod.mk.inj hep
      obtain ⟨hkind, _⟩ := Prod.mk.inj hkind
      rw [Entry.key, Entry.key, hkind]
    · rfl
  · rw [List.map_append]
    rfl

/-- A batch needs as many places as its entries grow (R24). -/
theorem placesNeeded_add (o : Origin) (ps : List Posting) (trial : List (ChanId × Kind × Nat)) (es : List Entry)
    (h : ∀ k, k ∈ trial ↔ k ∈ es.map Entry.key) :
    placesNeeded trial ps + es.length = (ps.foldl (afterPosting o) es).length := by
  induction ps generalizing trial es with
  | nil => exact Nat.zero_add _
  | cons p ps ih =>
    have hheld : trial.contains p.key = es.any fun e => decide (e.key = p.key) := by
      rw [Bool.eq_iff_iff, List.contains_iff_mem, h, List.any_eq_true, List.mem_map]
      simp
    have hkeys := afterPosting_keys o es p
    have hlen := congrArg List.length hkeys
    rw [List.length_map] at hlen
    rw [List.foldl_cons, placesNeeded, hheld]
    by_cases hk : (es.any fun e => decide (e.key = p.key)) = true
    · rw [if_pos hk] at hkeys hlen ⊢
      rw [List.length_map] at hlen
      rw [← ih trial (afterPosting o es p) fun k => by rw [h, hkeys], hlen]
    · rw [if_neg hk] at hkeys hlen ⊢
      rw [List.length_append, List.length_map] at hlen
      have hrest := ih (p.key :: trial) (afterPosting o es p) fun k => by
        rw [hkeys, List.mem_append, List.mem_cons, h, List.mem_singleton, or_comm]
      rw [← hrest, hlen, List.length_singleton]
      omega

/-- Settles O41. -/
theorem postAppliesWholeBatch : Obligations.PostAppliesWholeBatch := by
  rintro tag body s ps es hr hm h8 hlo hhi hall rfl rfl hcap
  obtain ⟨t, he, ht⟩ := exec_take (k := .post) rfl hr rfl ⟨postLenOk h8 hlo hhi, inModes_of_run hm, rfl, rfl⟩
    (c := .post tag body)
  have hneed := placesNeeded_add .host ((postRecords body).map recordPosting) s.keys s.queue.entries fun _ => Iff.rfl
  generalize hes : ((postRecords body).map recordPosting).foldl (afterPosting .host) s.queue.entries = es at hneed ⊢
  have hplaces : placesNeeded s.keys ((postRecords body).map recordPosting) = es.length - s.queue.entries.length := by
    omega
  have htake : s.takePost body = if 32 - s.queue.entries.length < es.length - s.queue.entries.length then
      .refuse .queueFull [natByte s.queue.entries.length, natByte (es.length - s.queue.entries.length)] s
    else .ok (dispositions .host s.queue.entries ((postRecords body).map recordPosting) ++ [natByte es.length]
      ++ wordBytes s.tb.bnum) (s.posted es) := by
    rw [State.takePost, State.checkRecords_of_all _ 0 hall]
    dsimp only
    rw [hplaces, State.insertAll_eq, hes]
    rfl
  exact ⟨t, he, fun hfull => ht.of_answer (htake.trans (if_pos (by omega))),
    fun hroom => ht.of_answer (htake.trans (if_neg (by omega)))⟩

end Sys2Proof.Machine
end

section
/-! SUPPORT. Faults found in the order of their checks and places, and TABLE_WRITE. -/

namespace Sys2Proof.Machine

/-! ### Faults in order -/

/-- The first fault, by the number of its check and then by its place, of the checks from number `k` on. -/
def FaultFrom (fails : Nat → Nat → Prop) (k : Nat) : Option (Nat × Nat) → Prop
  | some (n, j) => k ≤ n ∧ fails n j ∧ (∀ m, k ≤ m → m < n → ∀ i, ¬fails m i) ∧ ∀ i < j, ¬fails n i
  | none => ∀ m, k ≤ m → ∀ i, ¬fails m i

section
variable {fails : Nat → Nat → Prop} {k : Nat}

theorem FaultFrom.fail {j : Nat} (h : fails k j) (hj : ∀ i < j, ¬fails k i) : FaultFrom fails k (some (k, j)) :=
  ⟨le_rfl, h, fun _ h1 h2 => absurd h2 (Nat.not_lt.2 h1), hj⟩

/-- A check that passes at every place hands on to the next. -/
theorem FaultFrom.pass {e : Option (Nat × Nat)} (hk : ∀ i, ¬fails k i) (h : FaultFrom fails (k + 1) e) :
    FaultFrom fails k e := by
  have hlow : ∀ m, k ≤ m → m < k + 1 → ∀ i, ¬fails m i := fun m h1 h2 => by
    rwa [show m = k by omega]
  cases e with
  | some x =>
    obtain ⟨n, j⟩ := x
    obtain ⟨hkn, hn, hfirst, hj⟩ := h
    refine ⟨Nat.le_of_succ_le hkn, hn, fun m hkm hmn => ?_, hj⟩
    by_cases hm : k + 1 ≤ m
    · exact hfirst m hm hmn
    · exact hlow m hkm (Nat.lt_of_not_le hm)
  | none =>
    intro m hkm
    by_cases hm : k + 1 ≤ m
    · exact h m hm
    · exact hlow m hkm (Nat.lt_of_not_le hm)

/-- A check made by a condition, at place 0. -/
theorem FaultFrom.test {e : Option (Nat × Nat)} {p : Prop} [Decidable p] (hp : ∀ i, fails k i ↔ i = 0 ∧ p)
    (h : ¬p → FaultFrom fails (k + 1) e) : FaultFrom fails k (if p then some (k, 0) else e) := by
  by_cases hc : p
  · rw [if_pos hc]
    exact .fail ((hp 0).2 ⟨rfl, hc⟩) fun i hi => absurd hi (Nat.not_lt_zero i)
  · rw [if_neg hc]
    exact .pass (fun i hf => hc ((hp i).1 hf).2) (h hc)

theorem FaultFrom.eq_some {e : Option (Nat × Nat)} {n j : Nat} (h : FaultFrom fails k e) (hk : k ≤ n) (hn : fails n j)
    (hfirst : ∀ m < n, ∀ i, ¬fails m i) (hj : ∀ i < j, ¬fails n i) : e = some (n, j) := by
  cases e with
  | none => exact absurd hn (h n hk j)
  | some x =>
    obtain ⟨m, i⟩ := x
    obtain ⟨_, hm, hall, hi⟩ := h
    have hmn : m = n := by
      rcases Nat.lt_trichotomy m n with hlt | heq | hgt
      · exact absurd hm (hfirst m hlt i)
      · exact heq
      · exact absurd hn (hall n hk hgt j)
    subst hmn
    have hij : i = j := by
      rcases Nat.lt_trichotomy i j with hlt | heq | hgt
      · exact absurd hm (hj i hlt)
      · exact heq
      · exact absurd hn (hi j hgt)
    rw [hij]

theorem FaultFrom.eq_none {e : Option (Nat × Nat)} (h : FaultFrom fails k e) (hall : ∀ n j, ¬fails n j) : e = none := by
  cases e with
  | none => rfl
  | some x => exact absurd h.2.1 (hall x.1 x.2)

end

/-- The first slot that a test finds. -/
theorem firstSlot_eq_some {bad : Slot → Bool} {slots : List Slot} {k : Nat} (h : firstSlot bad slots = some k) :
    (∃ t, slots[k]? = some t ∧ bad t = true) ∧ ∀ j < k, ¬∃ t, slots[j]? = some t ∧ bad t = true := by
  obtain ⟨hk, hbad, hfirst⟩ := List.findIdx?_eq_some_iff_getElem.1 h
  refine ⟨⟨slots[k], List.getElem?_eq_getElem hk, hbad⟩, ?_⟩
  rintro j hj ⟨t, ht, hb⟩
  obtain ⟨_, rfl⟩ := List.getElem?_eq_some_iff.1 ht
  exact hfirst j hj hb

theorem firstSlot_eq_none {bad : Slot → Bool} {slots : List Slot} (h : firstSlot bad slots = none) (j : Nat) :
    ¬∃ t, slots[j]? = some t ∧ bad t = true := by
  rintro ⟨t, ht, hb⟩
  have := List.findIdx?_eq_none_iff.1 h t (List.mem_of_getElem? ht)
  rw [hb] at this
  cases this

/-! ### TABLE_WRITE -/

/-- The slots of a section by their places in the body (R199). -/
theorem sectionSlots_getElem? (body : List Byte) (k : Nat) : (sectionSlots body)[k]? =
    if k < (if (byteAt body 0).toNat = 0 then 4 else 6) then
      some (slotAt body (if (byteAt body 0).toNat = 0 then 41 + 4 * k else 1 + 4 * k)) else none := by
  have h0 : byteAt body 0 = 0 ↔ (byteAt body 0).toNat = 0 :=
    ⟨fun e => by rw [e]; rfl, fun e => BitVec.eq_of_toNat_eq e⟩
  unfold sectionSlots
  by_cases h : byteAt body 0 = 0
  · rw [if_pos h, if_pos (h0.1 h), if_pos (h0.1 h)]
    show (List.ofFn fun j : Fin 4 => slotAt body (41 + 4 * j.val))[k]? = _
    rw [List.getElem?_ofFn]
    split <;> rfl
  · rw [if_neg h, if_neg (mt h0.2 h), if_neg (mt h0.2 h)]
    show (List.ofFn fun j : Fin 6 => slotAt body (1 + 4 * j.val))[k]? = _
    rw [List.getElem?_ofFn]
    split <;> rfl

theorem sectionSlots_bad (body : List Byte) (bad : Slot → Bool) (k : Nat) :
    (∃ t, (sectionSlots body)[k]? = some t ∧ bad t = true) ↔
      k < (if (byteAt body 0).toNat = 0 then 4 else 6)
      ∧ bad (slotAt body (if (byteAt body 0).toNat = 0 then 41 + 4 * k else 1 + 4 * k)) = true := by
  rw [sectionSlots_getElem?]
  split
  · next h => simp [h]
  · next h => simp [h]

/-- The checks of R136 in their order: each branch of `tableFault` is one check. -/
theorem tableFault_checks (body : List Byte) : FaultFrom (tableFails body) 1 (tableFault body) := by
  have h4 : ∀ k, tableFails body 4 k ↔ ∃ t, (sectionSlots body)[k]? = some t ∧ t.badSource = true := fun k => by
    rw [sectionSlots_bad, Slot.badSource, decide_eq_true_eq]
    exact Iff.rfl
  have h5 : ∀ k, tableFails body 5 k ↔ ∃ t, (sectionSlots body)[k]? = some t ∧ t.badTarget = true := fun k => by
    rw [sectionSlots_bad, Slot.badTarget, Slot.isEmpty, Bool.and_eq_true, Bool.not_eq_true', decide_eq_false_iff_not,
      decide_eq_true_eq]
    exact Iff.rfl
  unfold tableFault
  refine .test (fun _ => Iff.rfl) fun _ => .test (fun _ => Iff.rfl) fun _ => .test (fun _ => Iff.rfl) fun _ => ?_
  cases hs : firstSlot Slot.badSource (sectionSlots body) with
  | some k =>
    obtain ⟨hbad, hfirst⟩ := firstSlot_eq_some hs
    exact .fail ((h4 k).2 hbad) fun i hi => mt (h4 i).1 (hfirst i hi)
  | none =>
  refine .pass (fun i => mt (h4 i).1 (firstSlot_eq_none hs i)) ?_
  cases ht : firstSlot Slot.badTarget (sectionSlots body) with
  | some k =>
    obtain ⟨hbad, hfirst⟩ := firstSlot_eq_some ht
    exact .fail ((h5 k).2 hbad) fun i hi => mt (h5 i).1 (hfirst i hi)
  | none =>
  refine .pass (fun i => mt (h5 i).1 (firstSlot_eq_none ht i)) fun m hm i => ?_
  obtain ⟨j, rfl⟩ := Nat.exists_eq_add_of_le' hm
  exact id

theorem setWidth_six (b : Byte) : (b.setWidth 6).setWidth 8 = b &&& 0x3F := by
  revert b
  decide +kernel

theorem halfBytes_halfAt (body : List Byte) (i : Nat) : halfBytes (halfAt body i) = [byteAt body i, byteAt body (i + 1)] :=
  halfBytes_append ..

theorem postRecAt_bytes (body : List Byte) (i : Nat) : (postRecAt body i).bytes =
    [byteAt body i, byteAt body (i + 1), byteAt body (i + 2), byteAt body (i + 3), byteAt body (i + 4),
      byteAt body (i + 5), byteAt body (i + 6), byteAt body (i + 7)] := by
  simp only [postRecAt, PostRec.bytes, halfBytes_halfAt]
  rfl

theorem Bank.ofFn_data {α : Type} {n : Nat} (f : Fin n → α) : (Bank.ofFn f).data = List.ofFn f := rfl

/-- A stored state record gives its section back, the two undefined bits of the status byte apart (R136, R199). -/
theorem stateRecAt_bytes {body : List Byte} {l : LineId} (hlen : body.length = 57) (h0 : byteAt body 0 = 0)
    (h1 : (byteAt body 1).toNat = l.val) :
    StateRec.bytes l (stateRecAt body) = body.take 5 ++ [byteAt body 5 &&& 0x3F] ++ body.drop 6 := by
  have hbytes : StateRec.bytes l (stateRecAt body) =
      ((List.range 57).map (byteAt body)).take 5 ++ [byteAt body 5 &&& 0x3F]
        ++ ((List.range 57).map (byteAt body)).drop 6 := by
    simp only [StateRec.bytes, stateRecAt, Bank.ofFn_data, natByte_of_toNat h1, halfBytes_halfAt, setWidth_six]
    show [0, byteAt body 1, byteAt body 2] ++ [byteAt body 3, byteAt body 4] ++ [_] ++ [byteAt body 6, byteAt body 7]
      ++ [byteAt body 8] ++ ((postRecAt body 9).bytes ++ ((postRecAt body 17).bytes ++ ((postRecAt body 25).bytes
        ++ ((postRecAt body 33).bytes ++ [])))) ++ _ = _
    simp only [postRecAt_bytes]
    rw [← h0]
    rfl
  rw [hbytes, ← eq_map_byteAt hlen]

theorem anySlotsAt_bytes {body : List Byte} (hlen : body.length = 25) (h0 : byteAt body 0 = 1) :
    anySectionBytes (anySlotsAt body) = body := by
  have hbytes : anySectionBytes (anySlotsAt body) = (List.range 25).map (byteAt body) := by
    rw [anySectionBytes, ← h0]
    rfl
  rw [hbytes, ← eq_map_byteAt hlen]

theorem tableLenOk_of {body : List Byte}
    (h : body.length = 57 ∧ byteAt body 0 ≠ 1 ∨ body.length = 25 ∧ byteAt body 0 ≠ 0) : tableLenOk body = true := by
  unfold tableLenOk
  split
  · next h0 =>
    have h0 : byteAt body 0 = 0 := BitVec.eq_of_toNat_eq h0
    simpa [h0] using h
  · next h1 =>
    have h1 : byteAt body 0 = 1 := BitVec.eq_of_toNat_eq h1
    simpa [h1] using h
  · rw [Bool.or_eq_true, decide_eq_true_eq, decide_eq_true_eq]
    exact h.imp And.left And.left

/-- TABLE_WRITE on a DISABLED unit (R136). -/
theorem State.takeTableWrite_of_disabled {body : List Byte} {s : State} (h : s.seq.unit = .disabled) :
    s.takeTableWrite body = match tableFault body with
      | some (n, k) => .refuse .badArg [natByte n, natByte k] s
      | none => .ok [] { s with seq := s.seq.writeSection body } := by
  rw [State.takeTableWrite, if_neg (fun hn => hn h)] <;> rfl

/-- Settles O45. -/
theorem tableWriteReplacesSection : Obligations.TableWriteReplacesSection := by
  intro tag body s hr hm hlockc hlock hlen
  obtain ⟨t, he, ht⟩ := exec_take (k := .tableWrite) rfl hr rfl
    ⟨tableLenOk_of hlen, inModes_setup_run hm, rfl, by rw [ReqKind.locked, hlockc, hlock]; rfl⟩ (c := .tableWrite tag body)
  refine ⟨fun hu => ⟨t, he, ht.of_answer (if_pos hu)⟩, fun hu => ⟨fun n k hn hfirst hk => ⟨t, he, ht.of_answer ?_⟩,
    fun hall => ⟨t, he, fun l h0 h1 => ?_, fun h1 => ?_⟩⟩⟩
  · have hpos : 1 ≤ n := by
      rcases Nat.eq_zero_or_pos n with rfl | h
      · exact hn.elim
      · exact h
    show s.takeTableWrite body = _
    rw [State.takeTableWrite_of_disabled hu, (tableFault_checks body).eq_some hpos hn hfirst hk]
    rfl
  · have h57 : body.length = 57 := (hlen.resolve_right fun h => h.2 h0).1
    refine ⟨stateRecAt body, stateRecAt_bytes h57 h0 h1, ht.of_answer ?_⟩
    show s.takeTableWrite body = _
    rw [State.takeTableWrite_of_disabled hu, (tableFault_checks body).eq_none hall]
    rw [SeqUnit.writeSection, if_pos h0, lineOf_eq_some.2 h1]
    rfl
  · have h25 : body.length = 25 := (hlen.resolve_left fun h => h.2 h1).1
    refine ⟨anySlotsAt body, anySlotsAt_bytes h25 h1, ht.of_answer ?_⟩
    show s.takeTableWrite body = _
    rw [State.takeTableWrite_of_disabled hu, (tableFault_checks body).eq_none hall]
    rw [SeqUnit.writeSection, if_neg (by rw [h1]; decide)]
    rfl

end Sys2Proof.Machine
end

section
/-! SUPPORT. The Check Engine: a step that begins, a run of skipped visits, the end of a check, and the requests CHECK
and STOP_CHECK. -/

namespace Sys2Proof.Machine

/-! ### Steps and visits -/

theorem CheckStep.isPulse_iff' (st : CheckStep) : st.isPulse = true ↔ st = .pulsePos ∨ st = .pulseNeg := by
  cases st <;> simp [CheckStep.isPulse]

/-- A step that begins, outside the output records (R86, R160). -/
theorem State.beginStep_eq (q : CheckParams) (p : Pass) (place : Nat) (st : CheckStep) (s : State) :
    s.beginStep q p place st = { s with
      check := { s.check with
        position := some { pass := p, place := place, step := st, frames := 0 }
        edges := if st = .pulsePos ∨ st = .pulseNeg then 0 else s.check.edges }
      outs := (s.beginStep q p place st).outs } := by
  cases st <;> rfl

/-- The next visit begins at the first channel that is not tripped, past those skipped (R158, R161). -/
theorem State.nextVisit_begin {q : CheckParams} {skipped vs : List (Pass × Nat)} {v : Pass × Nat} {st : CheckStep}
    {sts : List CheckStep} {s : State} (hskip : ∀ w ∈ skipped, s.latched (visitChannel q.order w.2) = true)
    (hv : s.latched (visitChannel q.order v.2) = false)
    (hst : stepsOf v.1 (s.chans.get (visitChannel q.order v.2)).mode = st :: sts) :
    State.nextVisit q (skipped ++ v :: vs) s =
      State.beginStep q v.1 v.2 st { s with check := skipped.foldl (skipOne q) s.check } := by
  rw [State.nextVisit_skip q skipped (v :: vs) s hskip]
  unfold State.nextVisit
  have hv' : State.latched { s with check := skipped.foldl (skipOne q) s.check } (visitChannel q.order v.2) = false := hv
  dsimp only
  rw [hv', if_neg Bool.false_ne_true, hst] <;> rfl

/-- With only tripped channels left a check completes (R161, R163). -/
theorem State.nextVisit_complete {q : CheckParams} {skipped : List (Pass × Nat)} {s : State}
    (hskip : ∀ w ∈ skipped, s.latched (visitChannel q.order w.2) = true) :
    State.nextVisit q skipped s = State.completeCheck { s with check := skipped.foldl (skipOne q) s.check } := by
  have h := State.nextVisit_skip q skipped [] s hskip
  rwa [List.append_nil] at h

/-- The pins where a step has begun: its channel is CHECKING, and every channel shows its state (R86, R88). -/
theorem State.begun_shows {q : CheckParams} {p : Pass} {place : Nat} {st : CheckStep} {s : State}
    (hm : s.ctl.mode = .check) (hq : s.check.params = some q)
    (hu : (s.chans.get (visitChannel q.order place)).mode ≠ .unused) :
    (s.beginStep q p place st).settle.driveState (visitChannel q.order place) = .checking
    ∧ ∀ c, Shows (s.beginStep q p place st).settle c (s.stepOut q (visitChannel q.order place) st c)
      ((s.beginStep q p place st).settle.outs.get c) := by
  refine ⟨?_, fun c => ?_⟩
  · have huse : s.used (visitChannel q.order place) = true := (s.used_iff _).2 hu
    have hch : (s.beginStep q p place st).check.channel = some (visitChannel q.order place) := by
      rw [CheckEngine.channel_eq_some, State.beginStep_eq]
      exact ⟨q, _, hq, rfl, rfl⟩
    have hd : (s.beginStep q p place st).driveState (visitChannel q.order place) = .checking := by
      have huse' : (s.beginStep q p place st).used (visitChannel q.order place) = true := by
        rw [State.beginStep_eq]
        exact huse
      have hm' : (s.beginStep q p place st).ctl.mode = .check := by
        rw [State.beginStep_eq]
        exact hm
      rw [State.driveState, if_pos huse', hm', hch]
      exact if_pos rfl
    exact hd
  · have h := State.settle_shows (s.beginStep q p place st) c
    rwa [State.beginStep_outs] at h

theorem stepsOf_cons_used {p : Pass} {m : ChanMode} {st : CheckStep} {sts : List CheckStep}
    (h : stepsOf p m = st :: sts) : m ≠ .unused := by
  rintro rfl
  cases p <;> cases h

/-! ### The end of a check -/

/-- The AUTO test, outside the output records (R72, R112, R113). -/
theorem State.autoTest_eq (s : State) : s.autoTest = { s with
    trips := s.trips.mapId fun c tr => if autoEligible s c then { latch := false, cause := 0 } else tr
    chans := s.chans.mapId fun c ch => if autoEligible s c then { ch with act := stoppedSet ch.act } else ch
    outs := s.autoTest.outs } := by
  have htrips : s.autoTest.trips
      = s.trips.mapId fun c tr => if autoEligible s c then { latch := false, cause := 0 } else tr :=
    Bank.ext_get fun c => by rw [(State.autoTest_chan s c).2, Bank.get_mapId]
  have hchans : s.autoTest.chans
      = s.chans.mapId fun c ch => if autoEligible s c then { ch with act := stoppedSet ch.act } else ch :=
    Bank.ext_get fun c => by rw [(State.autoTest_chan s c).1, Bank.get_mapId]
  have hrest : s.autoTest = { s with trips := s.autoTest.trips, chans := s.autoTest.chans, outs := s.autoTest.outs } := rfl
  rw [htrips, hchans] at hrest
  exact hrest

/-- The state that the end of a check leaves (R15, R16, R113, R163, R164). -/
theorem State.leaveCheck_eq (status : CheckStatus) (reason : AbortReason) (s : State) :
    s.leaveCheck status reason = { s with
      check := { s.check with running := false, status := status, reason := reason, position := none }
      ctl := { s.ctl with mode := .setup }
      tb := { s.tb with divider := 0, counter := 0, dir := .up, run := .stopped }
      trips := s.trips.mapId fun c tr => if autoEligible s c then { latch := false, cause := 0 } else tr
      chans := s.chans.mapId fun c ch => if autoEligible s c then { ch with act := stoppedSet ch.act } else ch
      outs := (s.leaveCheck status reason).outs
      link := s.link.offer (.checkDone status reason s.check.failures) } := by
  have h := State.autoTest_eq { s with
    check := { s.check with running := false, status := status, reason := reason, position := none }
    ctl := { s.ctl with mode := .setup }
    tb := s.tb.halt }
  unfold State.leaveCheck
  dsimp only
  generalize State.autoTest _ = a at h ⊢
  rw [h]
  rfl

/-- The pins after the end of a check (R66, R74, R90). -/
theorem State.leaveCheck_shows (status : CheckStatus) (reason : AbortReason) (s : State) (c : ChanId) :
    Shows (s.leaveCheck status reason) c (s.rearmedOut c) ((s.leaveCheck status reason).outs.get c) := by
  have h := State.settle_shows (State.autoTest { s with
    check := { s.check with running := false, status := status, reason := reason, position := none }
    ctl := { s.ctl with mode := .setup }
    tb := s.tb.halt }) c
  rw [State.autoTest_outs] at h
  exact h.congr rfl rfl rfl rfl rfl

/-- An untripped channel after the end of a check (R65, R90). -/
theorem State.leaveCheck_idle {status : CheckStatus} {reason : AbortReason} {s : State} {c : ChanId}
    (hu : (s.chans.get c).mode ≠ .unused) (hl : ((s.leaveCheck status reason).trips.get c).latch = false) :
    (s.leaveCheck status reason).driveState c = .idle := by
  have hm : (s.leaveCheck status reason).ctl.mode = .setup := by rw [State.leaveCheck_eq]
  have hu' : (s.leaveCheck status reason).used c = true := by
    rw [State.used_iff, State.leaveCheck_eq]
    simp only [Bank.get_mapId]
    split <;> exact hu
  rw [State.driveState, if_pos hu', hm]
  exact if_neg (by rw [State.latched, hl]; exact Bool.false_ne_true)

theorem State.leaveCheck_settle (status : CheckStatus) (reason : AbortReason) (s : State) :
    (s.leaveCheck status reason).settle = s.leaveCheck status reason := by
  unfold State.leaveCheck
  dsimp only
  generalize State.autoTest _ = a
  have h : ∀ o, (State.offer o a.settle).settle = State.offer o a.settle.settle := fun _ => rfl
  rw [h, State.settle_settle]

/-! ### A check whose every channel is tripped -/

/-- Skipping visits changes neither the parameters nor the edge count. -/
theorem skipOne_foldl_kept (q : CheckParams) (vs : List (Pass × Nat)) (k : CheckEngine) :
    (vs.foldl (skipOne q) k).params = k.params ∧ (vs.foldl (skipOne q) k).edges = k.edges := by
  induction vs generalizing k with
  | nil => exact ⟨rfl, rfl⟩
  | cons v vs ih => exact ih (skipOne q k v)

/-- The record of a skipped visit before the first boundary (R161). -/
def skippedFirst (q : CheckParams) (v : Pass × Nat) : Failure :=
  { pass := v.1, channel := visitChannel q.order v.2, step := .skipped, expected := 0, observed := 0, index := 0 }

/-- What skipping visits leaves of the check state (R161, R162). -/
theorem skipOne_foldl (q : CheckParams) (vs : List (Pass × Nat)) (k : CheckEngine) (hindex : k.frameIndex = 0)
    (hlog : k.log.length ≤ 6) (hfail : k.failures + vs.length ≤ 65535) :
    vs.foldl (skipOne q) k = { k with
      failures := k.failures + vs.length
      failed := vs.foldl (fun m v => m ||| oneChan (visitChannel q.order v.2)) k.failed
      log := k.log ++ (vs.take (6 - k.log.length)).map (skippedFirst q) } := by
  induction vs generalizing k with
  | nil => simp
  | cons v vs ih =>
    rw [List.length_cons] at hfail
    have hf : (skipOne q k v).failures = k.failures + 1 := by
      show min (k.failures + 1) 65535 = _
      omega
    have hl : (skipOne q k v).log = if k.log.length < 6 then k.log ++ [skippedFirst q v] else k.log := by
      simp only [skipOne, skippedFirst, hindex]
    have hl6 : (skipOne q k v).log.length ≤ 6 := by
      rw [hl]
      split
      · rw [List.length_append, List.length_singleton]; omega
      · exact hlog
    rw [List.foldl_cons, ih (skipOne q k v) hindex hl6 (by rw [hf]; omega), hf, hl]
    have htake : (if k.log.length < 6 then k.log ++ [skippedFirst q v] else k.log)
        ++ (vs.take (6 - (if k.log.length < 6 then k.log ++ [skippedFirst q v] else k.log).length)).map (skippedFirst q)
        = k.log ++ ((v :: vs).take (6 - k.log.length)).map (skippedFirst q) := by
      by_cases h : k.log.length < 6
      · obtain ⟨j, hj⟩ : ∃ j, 6 - k.log.length = j + 1 := ⟨5 - k.log.length, by omega⟩
        have hj' : 6 - (k.log.length + 1) = j := by omega
        rw [if_pos h, hj, List.length_append, List.length_singleton, hj', List.take_succ_cons, List.map_cons,
          List.append_assoc]
        rfl
      · have : 6 - k.log.length = 0 := by omega
        rw [if_neg h, this]
        rfl
    rw [htake, List.length_cons, Nat.add_assoc, Nat.add_comm 1]
    rfl

theorem foldl_oneChan_getLsbD (q : CheckParams) (vs : List (Pass × Nat)) (m : Half) (d : ChanId) :
    (vs.foldl (fun m v => m ||| oneChan (visitChannel q.order v.2)) m).getLsbD d.val = true ↔
      m.getLsbD d.val = true ∨ ∃ v ∈ vs, visitChannel q.order v.2 = d := by
  induction vs generalizing m with
  | nil => simp
  | cons v vs ih =>
    rw [List.foldl_cons, ih, BitVec.getLsbD_or, Bool.or_eq_true, oneChan_getLsbD, decide_eq_true_eq]
    simp only [List.mem_cons, exists_eq_or_imp, or_assoc, eq_comm (a := d)]

/-- The visiting order reaches every channel (R158). -/
theorem visitChannel_surj (o : VisitOrder) (c : ChanId) : ∃ k < 16, visitChannel o k = c := by
  revert c
  cases o <;> decide

theorem CheckParams.mem_visits {q : CheckParams} {v : Pass × Nat} (h : v ∈ q.visits) :
    q.mask.getLsbD (visitChannel q.order v.2).val = true := by
  obtain ⟨p, _, hv⟩ := List.mem_flatMap.1 h
  obtain ⟨k, hk, rfl⟩ := List.mem_map.1 hv
  exact (List.mem_filter.1 hk).2

theorem CheckParams.visits_of_mask {q : CheckParams} {c : ChanId} (h : q.mask.getLsbD c.val = true) :
    ∃ v ∈ q.visits, visitChannel q.order v.2 = c := by
  obtain ⟨k, hk, rfl⟩ := visitChannel_surj q.order c
  have hplace : k ∈ q.places := List.mem_filter.2 ⟨List.mem_range.2 hk, h⟩
  obtain ⟨p, hp⟩ : ∃ p, p ∈ q.passes.list := by
    cases q.passes
    · exact ⟨.static, List.mem_singleton.2 rfl⟩
    · exact ⟨.pulse, List.mem_singleton.2 rfl⟩
    · exact ⟨.static, List.mem_cons_self ..⟩
  exact ⟨(p, k), List.mem_flatMap.2 ⟨p, hp, List.mem_map.2 ⟨k, hplace, rfl⟩⟩, rfl⟩

theorem CheckParams.visits_length_le (q : CheckParams) : q.visits.length ≤ 32 := by
  have hp : q.places.length ≤ 16 := (List.length_filter_le ..).trans_eq List.length_range
  unfold CheckParams.visits
  cases q.passes <;> simp [Passes.list] <;> omega

/-- Every visit is of a channel of the mask, and every channel of the mask is visited (R158). -/
theorem CheckParams.visits_failed (q : CheckParams) :
    q.visits.foldl (fun m v => m ||| oneChan (visitChannel q.order v.2)) 0 = q.mask := by
  have h : MaskOf (q.visits.foldl (fun m v => m ||| oneChan (visitChannel q.order v.2)) 0)
      fun c => q.mask.getLsbD c.val = true := fun c => by
    rw [foldl_oneChan_getLsbD]
    constructor
    · rintro (h0 | ⟨v, hv, rfl⟩)
      · simp at h0
      · exact CheckParams.mem_visits hv
    · exact fun hc => Or.inr (CheckParams.visits_of_mask hc)
  exact h.eq fun _ => Iff.rfl

theorem CheckParams.visits_ne_nil {q : CheckParams} (h : q.mask ≠ 0) : q.visits ≠ [] := by
  intro hn
  refine h ?_
  rw [← q.visits_failed, hn]
  rfl

/-! ### The body of CHECK -/

theorem Passes.coded : Coded Passes.ofCode Passes.code 2 := .two rfl rfl rfl (fun _ => rfl) rfl rfl rfl
theorem VisitOrder.coded : Coded VisitOrder.ofCode VisitOrder.code 1 := .one rfl rfl (fun _ => rfl) rfl rfl

/-- Checks in order that name the place of the first fault, or give a value of which `good` holds. -/
def PlacedChecks {α : Type} (fails : Nat → Nat → Prop) (good : α → Prop) (k : Nat) : Except (Nat × Nat) α → Prop
  | .error x => FaultFrom fails k (some x)
  | .ok a => FaultFrom fails k none ∧ good a

section
variable {α : Type} {fails : Nat → Nat → Prop} {good : α → Prop} {k : Nat} {e : Except (Nat × Nat) α}

theorem PlacedChecks.pass (hk : ∀ i, ¬fails k i) (h : PlacedChecks fails good (k + 1) e) :
    PlacedChecks fails good k e := by
  cases e with
  | error x => exact FaultFrom.pass (e := some x) hk h
  | ok a => exact ⟨FaultFrom.pass hk h.1, h.2⟩

theorem PlacedChecks.fail (h : fails k 0) : PlacedChecks fails good k (.error (k, 0)) :=
  FaultFrom.fail h fun _ hi => absurd hi (Nat.not_lt_zero _)

theorem PlacedChecks.test {p : Prop} [Decidable p] (hp : ∀ i, fails k i ↔ i = 0 ∧ p)
    (h : ¬p → PlacedChecks fails good (k + 1) e) : PlacedChecks fails good k (if p then .error (k, 0) else e) := by
  by_cases hc : p
  · rw [if_pos hc]
    exact .fail ((hp 0).2 ⟨rfl, hc⟩)
  · rw [if_neg hc]
    exact .pass (fun i hf => hc ((hp i).1 hf).2) (h hc)

theorem PlacedChecks.eq_error {n j : Nat} (h : PlacedChecks fails good k e) (hk : k ≤ n) (hn : fails n j)
    (hfirst : ∀ m < n, ∀ i, ¬fails m i) (hj : ∀ i < j, ¬fails n i) : e = .error (n, j) := by
  cases e with
  | error x => rw [Option.some.inj (FaultFrom.eq_some h hk hn hfirst hj)]
  | ok a => cases FaultFrom.eq_some h.1 hk hn hfirst hj

theorem PlacedChecks.eq_ok (h : PlacedChecks fails good k e) (hall : ∀ n j, ¬fails n j) : ∃ a, e = .ok a ∧ good a := by
  cases e with
  | error x => cases FaultFrom.eq_none (e := some x) h hall
  | ok a => exact ⟨a, rfl, h.2⟩

end

/-- The lowest channel of a mask that is not used (R156). -/
theorem State.firstUnused_spec (s : State) (mask : Half) : match s.firstUnused mask with
    | some c => (mask.getLsbD c.val = true ∧ (s.chans.get c).mode = .unused)
        ∧ ∀ d : ChanId, d < c → mask.getLsbD d.val = true → (s.chans.get d).mode ≠ .unused
    | none => ∀ d : ChanId, mask.getLsbD d.val = true → (s.chans.get d).mode ≠ .unused := by
  have hp : ∀ d : ChanId, (mask.getLsbD d.val && !s.used d) = true ↔
      mask.getLsbD d.val = true ∧ (s.chans.get d).mode = .unused := fun d => by
    rw [Bool.and_eq_true, Bool.not_eq_true', ← Bool.not_eq_true, State.used_iff, not_not]
  cases h : s.firstUnused mask with
  | none =>
    intro d hm hu
    exact List.find?_eq_none.1 h d (mem_allChans d) ((hp d).2 ⟨hm, hu⟩)
  | some c =>
    obtain ⟨hc, i, hi, hic, hbefore⟩ := List.find?_eq_some_iff_getElem.1 h
    refine ⟨(hp c).1 hc, fun d hdc hm hu => ?_⟩
    have hget : ∀ j (hj : j < allChans.length), allChans[j].val = j := fun j hj => by simp [allChans]
    have hci : c.val = i := by rw [← hic, hget]
    have hdl : d.val < allChans.length := by simp [allChans]
    have hd : allChans[d.val] = d := Fin.ext (hget _ hdl)
    have := hbefore d.val (hci ▸ hdc)
    rw [hd, (hp d).2 ⟨hm, hu⟩] at this
    cases this

/-- The checks of R156 in their order: each branch of `State.checkParams` is one check. -/
theorem State.checkParams_checks {s : State} {body : List Byte} (hlen : body.length = 8) :
    PlacedChecks (checkFails s body) (fun q : CheckParams => q.bytes = body ∧ q.mask = halfAt body 0) 1 (s.checkParams body) := by
  unfold State.checkParams
  dsimp only
  refine .test (fun _ => Iff.rfl) fun _ => ?_
  have hfirst := s.firstUnused_spec (halfAt body 0)
  cases h2 : s.firstUnused (halfAt body 0) with
  | some c =>
    rw [h2] at hfirst
    obtain ⟨⟨hm, hu⟩, hbefore⟩ := hfirst
    refine FaultFrom.fail ⟨c, rfl, hm, hu, hbefore⟩ ?_
    rintro i hi ⟨d, rfl, hdm, hdu, _⟩
    exact hbefore d hi hdm hdu
  | none =>
  rw [h2] at hfirst
  refine .pass ?_ ?_
  · rintro i ⟨c, _, hm, hu, _⟩
    exact hfirst c hm hu
  cases h3 : Passes.ofCode (byteAt body 2).toNat with
  | none => exact .fail ⟨rfl, Passes.coded.gt h3⟩
  | some passes =>
  refine .pass (fun _ hf => absurd hf.2 (Nat.not_lt.2 (Passes.coded.le h3))) ?_
  cases h4 : VisitOrder.ofCode (byteAt body 3).toNat with
  | none => exact .fail ⟨rfl, VisitOrder.coded.gt h4⟩
  | some order =>
  refine .pass (fun _ hf => absurd hf.2 (Nat.not_lt.2 (VisitOrder.coded.le h4))) ?_
  have hzero : ∀ {w : Nat} (b : BitVec w), b = 0 ↔ b.toNat = 0 := fun b =>
    ⟨fun e => by rw [e]; rfl, fun e => BitVec.eq_of_toNat_eq e⟩
  refine .test (fun _ => and_congr_right fun _ => hzero _) fun _ => .test (fun _ => and_congr_right fun _ => hzero _)
    fun _ => .test (fun _ => and_congr_right fun _ => or_congr_left (hzero _)) fun _ => ⟨fun m hm i => ?_, ?_⟩
  · obtain ⟨j, rfl⟩ := Nat.exists_eq_add_of_le' hm
    exact id
  · have hlevel : natHalf (halfAt body 6).toNat = [byteAt body 6, byteAt body 7] := natHalf_append ..
    simp only [CheckParams.bytes, halfBytes_halfAt, Passes.coded.natByte h3, VisitOrder.coded.natByte h4,
      natByte_toNat, hlevel]
    exact ⟨(eq_map_byteAt hlen).symm, trivial⟩

theorem checkFails_unique {s : State} {body : List Byte} {n j k : Nat} (hj : checkFails s body n j)
    (hk : checkFails s body n k) : j = k := by
  unfold checkFails at hj hk
  split at hj
  case h_2 =>
    obtain ⟨c, rfl, hcm, hcu, hcb⟩ := hj
    obtain ⟨d, rfl, hdm, hdu, hdb⟩ := hk
    have h1 : ¬c < d := fun h => hdb c h hcm hcu
    have h2 : ¬d < c := fun h => hcb d h hdm hdu
    rw [le_antisymm (not_lt.1 h2) (not_lt.1 h1)]
  case h_8 => exact hj.elim
  all_goals exact hj.1.trans hk.1.symm

/-! ### CHECK and STOP_CHECK -/

theorem CheckParams.stepFrames_eq (q : CheckParams) (p : Pass) : q.stepFrames p = if p = .static then q.settle else q.pulse := by
  cases p <;> rfl

theorem State.visitFrames_eq (s : State) (q : CheckParams) (w : Pass × Nat) : s.visitFrames q w =
    if (s.trips.get (visitChannel q.order w.2)).latch = true then 0
    else (stepsOf w.1 (s.chans.get (visitChannel q.order w.2)).mode).length
      * (if w.1 = .static then q.settle else q.pulse) := by
  rw [State.visitFrames, CheckParams.stepFrames_eq]
  rfl

/-- The state that CHECK begins its visits from (R157). -/
def State.checkStarts (q : CheckParams) (s : State) : State := { s with
  check := { s.check with
    running := true, status := .inProgress, reason := .none, params := some q
    frameIndex := 0, log := [], failures := 0, failed := 0 }
  ctl := { s.ctl with mode := .check }
  tb := { s.tb with divider := 0, counter := 0, dir := .up, run := .running, frameEndDue := false } }

theorem State.beginCheck_eq (q : CheckParams) (s : State) :
    s.beginCheck q = (State.nextVisit q q.visits (s.checkStarts q)).settle := rfl

/-- The check state of an accepted CHECK whose channels are all tripped (R161, R163). -/
theorem skipOne_visits (q : CheckParams) (k : CheckEngine) (hindex : k.frameIndex = 0) (hlog : k.log = [])
    (hfail : k.failures = 0) (hfailed : k.failed = 0) : q.visits.foldl (skipOne q) k = { k with
      failures := q.visits.length, failed := q.mask, log := (q.visits.take 6).map (skippedFirst q) } := by
  have hle := q.visits_length_le
  rw [skipOne_foldl q q.visits k hindex (by rw [hlog]; decide) (by omega), hfail, hfailed, hlog, q.visits_failed,
    Nat.zero_add]
  rfl

theorem State.plannedFrames_eq (s : State) (q : CheckParams) : s.plannedFrames q =
    (q.visits.map fun w => if (s.trips.get (visitChannel q.order w.2)).latch = true then 0
      else (stepsOf w.1 (s.chans.get (visitChannel q.order w.2)).mode).length
        * (if w.1 = .static then q.settle else q.pulse)).sum := by
  rw [State.plannedFrames]
  exact congrArg List.sum (List.map_congr_left fun w _ => s.visitFrames_eq q w)

theorem State.plannedFrames_of_tripped {s : State} {q : CheckParams}
    (h : ∀ w ∈ q.visits, s.latched (visitChannel q.order w.2) = true) : s.plannedFrames q = 0 := by
  rw [State.plannedFrames, List.sum_eq_zero]
  intro n hn
  obtain ⟨w, hw, rfl⟩ := List.mem_map.1 hn
  exact if_pos (h w hw)

/-- An accepted CHECK that begins at a visit (R157, R158). -/
theorem Taken.check_begins {c : Instr} {q : CheckParams} {s t : State} {skipped vs : List (Pass × Nat)} {v : Pass × Nat}
    {st : CheckStep} {sts : List CheckStep} (ht : Taken c .ok (natHalf (s.plannedFrames q)) (s.beginCheck q) t)
    (hvis : q.visits = skipped ++ v :: vs)
    (hskip : ∀ w ∈ skipped, (s.trips.get (visitChannel q.order w.2)).latch = true)
    (hv : (s.trips.get (visitChannel q.order v.2)).latch = false)
    (hst : stepsOf v.1 (s.chans.get (visitChannel q.order v.2)).mode = st :: sts) :
    Taken c .ok
      (natHalf ((q.visits.map fun w =>
        if (s.trips.get (visitChannel q.order w.2)).latch = true then 0
        else (stepsOf w.1 (s.chans.get (visitChannel q.order w.2)).mode).length
          * (if w.1 = .static then q.settle else q.pulse)).sum)) { s.checkStarts q with
      check := { skipped.foldl (skipOne q) (s.checkStarts q).check with
        position := some { pass := v.1, place := v.2, step := st, frames := 0 }
        edges := if st = .pulsePos ∨ st = .pulseNeg then 0 else s.check.edges }
      outs := t.outs } t
    ∧ t.driveState (visitChannel q.order v.2) = .checking
    ∧ ∀ d : ChanId, Shows t d (s.stepOut q (visitChannel q.order v.2) st d) (t.outs.get d) := by
  have hbegin := State.nextVisit_begin (q := q) (vs := vs) (s := s.checkStarts q) hskip hv hst
  obtain ⟨hparams, hedges⟩ := skipOne_foldl_kept q skipped (s.checkStarts q).check
  rw [← hvis] at hbegin
  rw [s.plannedFrames_eq, s.beginCheck_eq, hbegin] at ht
  obtain ⟨hdrive, hshow⟩ := State.begun_shows (p := v.1) (st := st) (q := q)
    (s := { s.checkStarts q with check := skipped.foldl (skipOne q) (s.checkStarts q).check }) (place := v.2)
    rfl hparams (stepsOf_cons_used hst)
  refine ⟨?_, (State.driveState_linkFree ht.linkFree _).trans hdrive, fun d => ?_⟩
  · have heq := State.beginStep_eq q v.1 v.2 st
      { s.checkStarts q with check := skipped.foldl (skipOne q) (s.checkStarts q).check }
    rw [ht.outs]
    generalize State.beginStep q v.1 v.2 st _ = u at ht heq ⊢
    have hsettle : u.settle = { u with outs := u.settle.outs } := rfl
    generalize u.settle = w at ht hsettle ⊢
    rw [hsettle, heq] at ht
    dsimp only at ht
    rw [hedges] at ht
    exact ht
  · rw [ht.outs]
    exact Shows.linkFree ht.linkFree (hshow d)

/-- An accepted CHECK whose channels are all tripped completes at once (R161, R163). -/
theorem Taken.check_tripped {c : Instr} {q : CheckParams} {s t : State}
    (ht : Taken c .ok (natHalf (s.plannedFrames q)) (s.beginCheck q) t) (hm : s.ctl.mode = .setup) (hmask : q.mask ≠ 0)
    (htripped : ∀ w ∈ q.visits, s.latched (visitChannel q.order w.2) = true) :
    Taken c .ok [0, 0] { s with
      check := { s.check with
        running := false, status := .fail, reason := .none, params := some q, position := none
        frameIndex := 0, failures := q.visits.length, failed := q.mask
        log := (q.visits.take 6).map (skippedFirst q) }
      tb := { s.tb with
        divider := 0, counter := 0, dir := .up, run := .stopped, frameEndDue := false }
      trips := s.trips.mapId fun c tr => if autoEligible s c then { latch := false, cause := 0 } else tr
      chans := s.chans.mapId fun c ch => if autoEligible s c then { ch with act := stoppedSet ch.act } else ch
      outs := t.outs
      link := s.link.offer (.checkDone .fail .none q.visits.length) } t
    ∧ ∀ d : ChanId, Shows t d (s.rearmedOut d) (t.outs.get d) := by
  have hskip := skipOne_visits q (s.checkStarts q).check rfl rfl rfl rfl
  have hdone : s.beginCheck q = State.leaveCheck .fail .none
      { s.checkStarts q with check := q.visits.foldl (skipOne q) (s.checkStarts q).check } := by
    have hfail : (if q.visits.length = 0 then CheckStatus.pass else .fail) = .fail :=
      if_neg fun h => CheckParams.visits_ne_nil hmask (List.length_eq_zero_iff.1 h)
    rw [s.beginCheck_eq, State.nextVisit_complete (s := s.checkStarts q) htripped, State.completeCheck, State.leaveCheck_settle, hskip]
    dsimp only
    rw [hfail]
  rw [State.plannedFrames_of_tripped htripped, hdone] at ht
  refine ⟨?_, fun d => ?_⟩
  · have hctl : { s.ctl with mode := .setup } = s.ctl := by rw [← hm]
    rw [ht.outs]
    generalize hu : State.leaveCheck .fail .none _ = u at ht ⊢
    have heq := State.leaveCheck_eq .fail .none
      { s.checkStarts q with check := q.visits.foldl (skipOne q) (s.checkStarts q).check }
    rw [hu, hskip] at heq
    rw [heq] at ht
    dsimp only [State.checkStarts] at ht
    rw [hctl] at ht
    exact ht
  · rw [ht.outs]
    exact Shows.linkFree ht.linkFree (State.leaveCheck_shows _ _ _ d)

/-- Settles O48. -/
theorem checkBeginsAndStops : Obligations.CheckBeginsAndStops := by
  refine ⟨fun tag body s hr hm htb hlen => ?_, fun tag s hr hm => ?_⟩
  · obtain ⟨t, he, ht⟩ := exec_take (k := .check) rfl hr rfl
      ⟨by simpa [ReqKind.lenOk] using hlen, by rw [ReqKind.modeOk, hm]; rfl, htb, rfl⟩ (c := .check tag body)
    have hchecks := State.checkParams_checks (s := s) hlen
    refine ⟨fun n k hn hfirst => ⟨t, he, ht.of_answer ?_⟩, fun hall => ?_⟩
    · have hpos : 1 ≤ n := by
        rcases Nat.eq_zero_or_pos n with rfl | h
        · exact hn.elim
        · exact h
      show s.takeCheck body = _
      rw [State.takeCheck, hchecks.eq_error hpos hn hfirst fun i hi hf => absurd (checkFails_unique hf hn) (Nat.ne_of_lt hi)]
      rfl
    · obtain ⟨q, hok, hbytes, hmask⟩ := hchecks.eq_ok hall
      have hta : Taken (.check tag body) .ok (natHalf (s.plannedFrames q)) (s.beginCheck q) t :=
        ht.of_answer (show s.takeCheck body = _ by rw [State.takeCheck, hok]; rfl)
      refine ⟨t, q, he, hbytes, fun skipped v vs st sts hvis hskip hv hst => ?_, fun htripped => ?_⟩
      · exact Taken.check_begins hta hvis hskip hv hst
      · exact Taken.check_tripped hta hm (fun h0 => hall 1 0 ⟨rfl, hmask.symm.trans h0⟩) fun w hw =>
          htripped _ (CheckParams.mem_visits hw)
  · obtain ⟨t, he, ht⟩ := exec_take (k := .stopCheck) rfl hr rfl ⟨rfl, by rw [ReqKind.modeOk, hm]; rfl, rfl, rfl⟩
      (c := .stopCheck tag [])
    have hta : Taken (.stopCheck tag []) .ok (natHalf s.check.failures ++ natHalf s.check.frameIndex)
      (s.leaveCheck .aborted .host) t := ht
    refine ⟨t, he, ?_, fun c => ⟨?_, fun hu hl => ?_⟩⟩
    · rw [hta.outs]
      rw [s.leaveCheck_eq] at hta
      exact hta
    · rw [hta.outs]
      exact Shows.linkFree hta.linkFree (s.leaveCheck_shows _ _ c)
    · have hl' : ((s.leaveCheck .aborted .host).trips.get c).latch = false := by rwa [hta.linkFree] at hl
      have hidle := State.leaveCheck_idle hu hl'
      have hmode : (s.leaveCheck .aborted .host).ctl.mode ≠ .starting := by
        rw [s.leaveCheck_eq]
        exact OpMode.noConfusion
      rw [hta.outs]
      exact ⟨(State.driveState_linkFree hta.linkFree c).trans hidle,
        (s.leaveCheck_shows _ _ c).inactive_of_quiet hmode (Or.inr (Or.inl hidle))⟩

end Sys2Proof.Machine
end

section
/-! SUPPORT. A frame boundary of a running check. -/

namespace Sys2Proof.Machine

/-! ### The test of an ending step -/

/-- The failure that the test of a step finds, where it finds one (R159, R160). -/
def State.testFailure (s : State) (q : CheckParams) (p : Position) (c : ChanId) : Failure :=
  { pass := p.pass, channel := c, step := .step p.step, index := s.check.frameIndex
    expected := if p.step = .pulsePos ∨ p.step = .pulseNeg then q.pulse
      else if p.step = .aOn then (s.chans.get c).cfg.expA.code
      else if p.step = .bOn then (s.chans.get c).cfg.expB.code else (s.chans.get c).cfg.expIdle.code
    observed := if p.step = .pulsePos ∨ p.step = .pulseNeg then s.check.edges
      else (s.senses.get c).filtered.code }

/-- The test of a step fails (R159, R160). -/
def State.testFails (s : State) (q : CheckParams) (p : Position) (c : ChanId) : Bool :=
  if p.step = .pulsePos ∨ p.step = .pulseNeg then decide (s.check.edges < q.pulse)
  else decide ((s.senses.get c).filtered ≠
    if p.step = .aOn then (s.chans.get c).cfg.expA
    else if p.step = .bOn then (s.chans.get c).cfg.expB else (s.chans.get c).cfg.expIdle)

theorem ChanCfg.expectation_eq (g : ChanCfg) (st : CheckStep) :
    g.expectation st = if st = .aOn then g.expA else if st = .bOn then g.expB else g.expIdle := by
  cases st <;> rfl

theorem State.stepFailure_eq (s : State) (q : CheckParams) (p : Position) :
    s.stepFailure q p = if s.testFails q p (visitChannel q.order p.place) = true then
      some (s.testFailure q p (visitChannel q.order p.place)) else none := by
  unfold State.stepFailure State.testFails State.testFailure
  by_cases hp : p.step = .pulsePos ∨ p.step = .pulseNeg
  · simp only [(CheckStep.isPulse_iff' p.step).2 hp, if_pos hp, if_true, decide_eq_true_eq]
  · have hn : ¬p.step.isPulse = true := fun h => hp ((CheckStep.isPulse_iff' p.step).1 h)
    have hcode : (if p.step = .aOn then (s.chans.get (visitChannel q.order p.place)).cfg.expA.code
        else if p.step = .bOn then (s.chans.get (visitChannel q.order p.place)).cfg.expB.code
        else (s.chans.get (visitChannel q.order p.place)).cfg.expIdle.code)
        = ((s.chans.get (visitChannel q.order p.place)).cfg.expectation p.step).code := by
      rw [ChanCfg.expectation_eq]
      split
      · rfl
      · split <;> rfl
    simp only [if_neg hn, if_neg hp, hcode, decide_eq_true_eq, ne_eq, ite_not, ← ChanCfg.expectation_eq]
    exact if_congr eq_comm rfl rfl

/-- The check state after the test of an ending step (R159 to R162). -/
theorem State.tested_eq (s : State) (q : CheckParams) (p : Position) : s.tested q p = { s with
    check := if s.testFails q p (visitChannel q.order p.place) = true then
      { s.check with
        failures := min (s.check.failures + 1) 65535
        failed := s.check.failed ||| oneChan (visitChannel q.order p.place)
        log := if s.check.log.length < 6 then s.check.log ++ [s.testFailure q p (visitChannel q.order p.place)]
          else s.check.log }
      else s.check } := by
  rw [State.tested, State.stepFailure_eq]
  cases s.testFails q p (visitChannel q.order p.place) <;> rfl

/-! ### The boundary -/

/-- A frame boundary in CHECK before the Check Engine's own work (R16, R158). -/
def State.checkCounted (s : State) : State := { s with
  tb := { s.tb with divider := 0, counter := 0, dir := .up, frameEndDue := false }
  check := { s.check with frameIndex := min (s.check.frameIndex + 1) 65535 } }

theorem State.checkFrame_eq {s : State} {q : CheckParams} {p : Position} (hq : s.check.params = some q)
    (hp : s.check.position = some p) : s.frameTaken.checkFrame =
      (if q.stepFrames p.pass ≤ p.frames + 1 then s.checkCounted.endStep q p
        else { s.checkCounted with check := { s.checkCounted.check with
          position := some { p with frames := p.frames + 1 } } }).settle := by
  have h : State.checkBoundary { s.frameTaken with tb := s.frameTaken.tb.restart } =
      match s.checkCounted.check.params, s.checkCounted.check.position with
      | some q, some p =>
        if q.stepFrames p.pass ≤ p.frames + 1 then s.checkCounted.endStep q p
        else { s.checkCounted with check := { s.checkCounted.check with
          position := some { p with frames := p.frames + 1 } } }
      | _, _ => s.checkCounted := rfl
  have hq' : s.checkCounted.check.params = some q := hq
  have hp' : s.checkCounted.check.position = some p := hp
  rw [hq', hp'] at h
  exact congrArg State.settle h

theorem State.stepEnds_eq {s : State} {q : CheckParams} {p : Position} (hq : s.check.params = some q)
    (hp : s.check.position = some p) : s.stepEnds = decide (q.stepFrames p.pass ≤ p.frames + 1) := by
  rw [State.stepEnds, hq, hp]

/-- The end of a step, with the tested state named (R158). -/
theorem State.endStep_tested {s : State} {q : CheckParams} {p : Position} {k : CheckEngine}
    (h : s.tested q p = { s with check := k }) : s.endStep q p =
      match stepAfter p.step (stepsOf p.pass (s.chans.get (visitChannel q.order p.place)).mode) with
      | some st => State.beginStep q p.pass p.place st { s with check := k }
      | none => State.nextVisit q (q.visitsAfter p) { s with check := k } := by
  rw [State.endStep_eq, h] <;> rfl

/-- The pins settled and the transmitter begun after an event's work (R66, R191). -/
theorem State.settle_kick_became (x : State) : Became { x with outs := x.settle.kick.outs } x.settle.kick := by
  have h : ({ x with outs := x.settle.kick.outs } : State) = x.settle := by
    rw [State.kick_outs]
    rfl
  rw [h]
  exact State.kick_became _

theorem State.settle_kick_shows (x : State) (c : ChanId) :
    Shows x.settle.kick c (x.outs.get c) (x.settle.kick.outs.get c) := by
  rw [State.kick_outs]
  exact Shows.linkFree (State.kick_became _).1 (x.settle_shows c)

/-- A step that begins at a boundary (R86, R158). -/
theorem State.begun_became {q : CheckParams} {p : Pass} {place : Nat} {st : CheckStep} {s : State}
    (hm : s.ctl.mode = .check) (hq : s.check.params = some q)
    (hu : (s.chans.get (visitChannel q.order place)).mode ≠ .unused) :
    let t := (s.beginStep q p place st).settle.kick
    Became { s with
      check := { s.check with
        position := some { pass := p, place := place, step := st, frames := 0 }
        edges := if st = .pulsePos ∨ st = .pulseNeg then 0 else s.check.edges }
      outs := t.outs } t
    ∧ t.driveState (visitChannel q.order place) = .checking
    ∧ ∀ d, Shows t d (s.stepOut q (visitChannel q.order place) st d) (t.outs.get d) := by
  intro t
  obtain ⟨hdrive, hshow⟩ := State.begun_shows (p := p) (st := st) hm hq hu
  have hlink := (State.kick_became (s.beginStep q p place st).settle).1
  refine ⟨?_, (State.driveState_linkFree hlink _).trans hdrive, fun d => ?_⟩
  · have hb := State.settle_kick_became (s.beginStep q p place st)
    have heq := State.beginStep_eq q p place st s
    have ht : t = (s.beginStep q p place st).settle.kick := rfl
    rw [← ht] at hb
    clear_value t
    generalize s.beginStep q p place st = u at hb heq
    rw [heq] at hb
    exact hb
  · have hout : t.outs = (s.beginStep q p place st).settle.outs := State.kick_outs _
    rw [hout]
    exact Shows.linkFree hlink (hshow d)

/-- A check that ends at a boundary (R16, R113, R163). -/
theorem State.left_became (status : CheckStatus) (reason : AbortReason) (s : State) :
    let t := (s.leaveCheck status reason).kick
    Became { s with
      check := { s.check with running := false, status := status, reason := reason, position := none }
      ctl := { s.ctl with mode := .setup }
      tb := { s.tb with divider := 0, counter := 0, dir := .up, run := .stopped }
      trips := s.trips.mapId fun c tr => if autoEligible s c then { latch := false, cause := 0 } else tr
      chans := s.chans.mapId fun c ch => if autoEligible s c then { ch with act := stoppedSet ch.act } else ch
      outs := t.outs
      link := s.link.offer (.checkDone status reason s.check.failures) } t
    ∧ ∀ d, Shows t d (s.rearmedOut d) (t.outs.get d) := by
  intro t
  have hb : Became (s.leaveCheck status reason) t := State.kick_became _
  have hout : t.outs = (s.leaveCheck status reason).outs := State.kick_outs _
  refine ⟨?_, fun d => ?_⟩
  · rw [hout]
    have heq := s.leaveCheck_eq status reason
    clear_value t
    generalize s.leaveCheck status reason = u at hb hout heq ⊢
    rw [heq] at hb
    exact hb
  · rw [hout]
    exact Shows.linkFree hb.1 (s.leaveCheck_shows status reason d)

/-- Settles O19: below the step's last boundary it is counted; at it `State.endStep` moves on. -/
theorem checkBoundaryMovesOn : Obligations.CheckBoundaryMovesOn := by
  intro s q p c n bad f k hm hr hq hp hc hn hbad hf hk
  have hframes : q.stepFrames p.pass = n := by rw [hn, CheckParams.stepFrames_eq]
  have hw : exec .frameEnd s = .next s.frameTaken.checkFrame.kick := by
    rw [← State.takeFrameEnd_of_check hr hm]
    rfl
  have hwork := State.checkFrame_eq hq hp
  rw [hframes] at hwork
  have htested : s.checkCounted.tested q p = { s.checkCounted with check := k } := by
    rw [State.tested_eq, ← hc, hk, hbad, hf]
    rfl
  have hparams : k.params = some q := by
    rw [hk]
    split <;> exact hq
  refine ⟨?_, _, hw, fun hless => ?_, fun hend => ⟨fun st hst => ?_, fun skipped e hnone hskip he => ⟨?_, fun hall => ?_⟩⟩⟩
  · have hev : exec .checkStepEnd s = if s.ctl.mode = .check ∧ s.stepEnds = true then
        exec .frameEnd s else .next s := rfl
    rw [hev, State.stepEnds_eq hq hp, hframes]
    exact if_congr (by rw [decide_eq_true_eq]; exact and_iff_right hm) rfl rfl
  · rw [if_neg (by omega)] at hwork
    rw [hwork]
    exact ⟨State.settle_kick_became _, fun d => State.settle_kick_shows _ d⟩
  all_goals rw [if_pos hend, State.endStep_tested htested] at hwork
  · have hst' : stepAfter p.step (stepsOf p.pass (s.checkCounted.chans.get (visitChannel q.order p.place)).mode) = some st := by
      rw [← hc]
      exact hst
    have hused : (s.chans.get (visitChannel q.order p.place)).mode ≠ .unused := by
      intro hu
      rw [hc, hu] at hst
      cases hpass : p.pass <;> rw [hpass] at hst <;> cases hst
    rw [hst'] at hwork
    rw [hwork, hc]
    exact State.begun_became (s := { s.checkCounted with check := k }) (p := p.pass) (place := p.place) hm hparams hused
  · intro v vs st sts hvis hv hst
    have hnone' : stepAfter p.step (stepsOf p.pass (s.checkCounted.chans.get (visitChannel q.order p.place)).mode) = none := by
      rw [← hc]
      exact hnone
    have hbegin := State.nextVisit_begin (q := q) (vs := vs) (s := { s.checkCounted with check := k }) hskip hv hst
    rw [hnone'] at hwork
    dsimp only at hwork
    rw [hvis, hbegin, ← he] at hwork
    rw [hwork]
    have hparams' : e.params = some q := by rw [he, (skipOne_foldl_kept q skipped k).1, hparams]
    exact State.begun_became (s := { s.checkCounted with check := e }) (p := v.1) (place := v.2) hm hparams'
      (stepsOf_cons_used hst)
  · have hnone' : stepAfter p.step (stepsOf p.pass (s.checkCounted.chans.get (visitChannel q.order p.place)).mode) = none := by
      rw [← hc]
      exact hnone
    rw [hnone'] at hwork
    dsimp only at hwork
    rw [hall, State.nextVisit_complete (s := { s.checkCounted with check := k }) hskip, ← he, State.completeCheck,
      State.leaveCheck_settle] at hwork
    rw [hwork]
    exact State.left_became _ _ { s.checkCounted with check := e }

end Sys2Proof.Machine
end

section
/-! SUPPORT. SEQ_ARM: the first fault of the table in the order of the tests, and the entry into the home state. -/

namespace Sys2Proof.Machine

/-! ### The least fault of a search -/

/-- The result of a search: a record of which `P` holds with the least key, or none where `P` holds of none. -/
def LeastBy {α : Type} (key : α → Nat) (P : α → Prop) : Option α → Prop
  | some a => P a ∧ ∀ b, P b → key a ≤ key b
  | none => ∀ a, ¬P a

section
variable {α β : Type} {key : α → Nat} {P Q : α → Prop} {r t : Option α}

theorem LeastBy.congr (h : LeastBy key P r) (hpq : ∀ a, P a ↔ Q a) : LeastBy key Q r := by
  have : P = Q := funext fun a => propext (hpq a)
  rwa [← this]

/-- A search that goes on where the first part finds nothing. -/
theorem LeastBy.or (h1 : LeastBy key P r) (h2 : LeastBy key Q t) (hlt : ∀ a b, P a → Q b → key a ≤ key b) :
    LeastBy key (fun a => P a ∨ Q a) (r.or t) := by
  cases r with
  | some a =>
    obtain ⟨ha, hleast⟩ := h1
    exact ⟨Or.inl ha, fun b hb => hb.elim (hleast b) (hlt a b ha)⟩
  | none =>
    refine LeastBy.congr (P := Q) ?_ fun a => ⟨Or.inr, fun h => h.resolve_left (h1 a)⟩
    exact h2

/-- What a search finds, named by its place. -/
theorem LeastBy.map {key' : β → Nat} {g : α → β} (h : LeastBy key P r)
    (hkey : ∀ a b, key a ≤ key b → key' (g a) ≤ key' (g b)) :
    LeastBy key' (fun b => ∃ a, P a ∧ b = g a) (r.map g) := by
  cases r with
  | some a =>
    obtain ⟨ha, hleast⟩ := h
    refine ⟨⟨a, ha, rfl⟩, ?_⟩
    rintro _ ⟨b, hb, rfl⟩
    exact hkey a b (hleast b hb)
  | none =>
    rintro _ ⟨a, ha, rfl⟩
    exact h a ha

theorem LeastBy.eq_none_iff (h : LeastBy key P r) : r = none ↔ ∀ a, ¬P a := by
  cases r with
  | some a => exact ⟨fun e => (by cases e), fun hn => absurd h.1 (hn a)⟩
  | none => exact ⟨fun _ => h, fun _ => rfl⟩

theorem LeastBy.eq_some {a : α} (h : LeastBy key P r) (ha : P a) (hleast : ∀ b, P b → key a ≤ key b)
    (hinj : ∀ b, P b → key a = key b → b = a) : r = some a := by
  cases r with
  | some b =>
    obtain ⟨hb, hb'⟩ := h
    rw [hinj b hb (le_antisymm (hleast b hb) (hb' a ha))]
  | none => exact absurd ha (h a)

end

/-! ### One slot, one posting -/

theorem SeqUnit.isDefined_iff (u : SeqUnit) (l : LineId) : u.isDefined l = true ↔ (u.table.get l).defined ≠ 0 := by
  simp [SeqUnit.isDefined]

theorem sourceIndexMax_eq (n : Nat) : sourceIndexMax n = indexLimit n := rfl

/-- The target of a slot is a defined state. -/
def SeqUnit.targets (u : SeqUnit) (b : Byte) : Bool :=
  match lineOf b with
  | some l => u.isDefined l
  | none => false

theorem SeqUnit.slotFault_eq (u : SeqUnit) (t : Slot) : u.slotFault t =
    if t.isEmpty then none
    else if !u.targets t.target then some 1
    else if t.negate ≠ 0 ∧ !t.isLevel then some 2
    else if sourceIndexMax t.source.toNat < t.index.toNat then some 3
    else none := rfl

theorem SeqUnit.targets_iff (u : SeqUnit) (b : Byte) : u.targets b = true ↔
    ∃ l : LineId, b.toNat = l.val ∧ (u.table.get l).defined ≠ 0 := by
  unfold SeqUnit.targets
  cases h : lineOf b with
  | none =>
    have := lineOf_eq_none.1 h
    refine ⟨fun hf => (by cases hf), ?_⟩
    rintro ⟨l, hl, _⟩
    have := l.isLt
    omega
  | some l =>
    have hl := lineOf_eq_some.1 h
    refine (u.isDefined_iff l).trans ⟨fun hd => ⟨l, hl, hd⟩, ?_⟩
    rintro ⟨m, hm, hd⟩
    rwa [Fin.ext (hl.symm.trans hm)]

/-- The slot tests in their order (R139). -/
theorem SeqUnit.slotFault_least (u : SeqUnit) (t : Slot) : LeastBy id (slotFails u t) (u.slotFault t) := by
  have hcases : ∀ k, slotFails u t k → k = 1 ∨ k = 2 ∨ k = 3 := by
    intro k hk
    obtain ⟨_, hk⟩ := hk
    split at hk
    · exact Or.inl rfl
    · exact Or.inr (Or.inl rfl)
    · exact Or.inr (Or.inr rfl)
    · exact hk.elim
  have hlevel : t.isLevel = true ↔ 1 ≤ t.source.toNat ∧ t.source.toNat ≤ 5 := by
    rw [Slot.isLevel, Bool.and_eq_true, decide_eq_true_eq, decide_eq_true_eq]
  rw [SeqUnit.slotFault_eq]
  by_cases h0 : t.isEmpty = true
  · rw [if_pos h0]
    exact fun k hk => hk.1 (of_decide_eq_true h0)
  have hs : t.source ≠ 0 := fun h => h0 (decide_eq_true h)
  rw [if_neg h0]
  have h1 : slotFails u t 1 ↔ (!u.targets t.target) = true := by
    rw [Bool.not_eq_true', ← Bool.not_eq_true, SeqUnit.targets_iff]
    exact and_iff_right hs
  have h2 : slotFails u t 2 ↔ t.negate ≠ 0 ∧ (!t.isLevel) = true := by
    rw [Bool.not_eq_true', ← Bool.not_eq_true, hlevel]
    exact and_iff_right hs
  have h3 : slotFails u t 3 ↔ sourceIndexMax t.source.toNat < t.index.toNat := and_iff_right hs
  by_cases n1 : (!u.targets t.target) = true
  · rw [if_pos n1]
    refine ⟨h1.2 n1, fun k hk => ?_⟩
    rcases hcases k hk with rfl | rfl | rfl <;> decide
  rw [if_neg n1]
  by_cases n2 : t.negate ≠ 0 ∧ (!t.isLevel) = true
  · rw [if_pos n2]
    refine ⟨h2.2 n2, fun k hk => ?_⟩
    rcases hcases k hk with rfl | rfl | rfl
    · exact absurd (h1.1 hk) n1
    · decide
    · decide
  rw [if_neg n2]
  by_cases n3 : sourceIndexMax t.source.toNat < t.index.toNat
  · rw [if_pos n3]
    refine ⟨h3.2 n3, fun k hk => ?_⟩
    rcases hcases k hk with rfl | rfl | rfl
    · exact absurd (h1.1 hk) n1
    · exact absurd (h2.1 hk) n2
    · decide
  rw [if_neg n3]
  intro k hk
  rcases hcases k hk with rfl | rfl | rfl
  · exact n1 (h1.1 hk)
  · exact n2 (h2.1 hk)
  · exact n3 (h3.1 hk)

/-- The tests of an entry posting in their order (R139). -/
theorem State.postingFault_least (s : State) (r : PostRec) : LeastBy id (postingFails s r) (s.postingFault r) := by
  unfold State.postingFault State.checkEntryPosting
  cases hch : chanOf r.channel with
  | none =>
    have h16 := chanOf_eq_none.1 hch
    have h1 : recordFails s r 1 := by
      rintro ⟨c, hc, _⟩
      omega
    refine ⟨Or.inl ⟨rfl, h1⟩, ?_⟩
    rintro k (⟨rfl, _⟩ | ⟨rfl, _⟩) <;> decide
  | some c =>
    have hc := chanOf_eq_some.1 hch
    have h1 : recordFails s r 1 ↔ (!s.used c) = true := by
      rw [Bool.not_eq_true', ← Bool.not_eq_true, State.used_iff]
      exact not_congr ⟨fun ⟨d, hd, hu⟩ => Fin.ext (hd.symm.trans hc) ▸ hu, fun hu => ⟨c, hc, hu⟩⟩
    dsimp only
    by_cases hu : (!s.used c) = true
    · rw [if_pos hu]
      refine ⟨Or.inl ⟨rfl, h1.2 hu⟩, ?_⟩
      rintro k (⟨rfl, _⟩ | ⟨rfl, _⟩) <;> decide
    · rw [if_neg hu]
      have hset := checkSetpoint_checks (s := s) (r := r) hc
      revert hset
      cases checkSetpoint (s.chans.get c).mode r with
      | error n =>
        rintro ⟨hn, hf, _⟩
        refine ⟨Or.inr ⟨rfl, n, hn, hf⟩, ?_⟩
        rintro k (⟨rfl, h⟩ | ⟨rfl, _⟩)
        · exact absurd (h1.1 h) hu
        · decide
      | ok sp =>
        rintro ⟨hall, _⟩ k (⟨rfl, h⟩ | ⟨rfl, n, hn, hf⟩)
        · exact hu (h1.1 h)
        · exact hall n hn hf

/-! ### The search of the table -/

/-- A search of a list, item by item (R139). -/
theorem firstFault_least {α : Type} {f : α → Option Nat} {F : α → Nat → Prop} (hf : ∀ x, LeastBy id (F x) (f x))
    (hF : ∀ x k, F x k → k < 6) (n0 : Nat) (xs : List α) :
    LeastBy (fun a : Nat × Nat => a.1 * 6 + a.2) (fun a => ∃ i x, a.1 = n0 + i ∧ xs[i]? = some x ∧ F x a.2)
      (firstFault f n0 xs) := by
  induction xs generalizing n0 with
  | nil =>
    rintro a ⟨i, x, _, hx, _⟩
    simp at hx
  | cons x xs ih =>
    have hmap := LeastBy.map (g := fun k => (n0, k)) (key' := fun a : Nat × Nat => a.1 * 6 + a.2) (hf x)
      fun a b h => Nat.add_le_add_left h _
    have hor := LeastBy.or hmap (ih (n0 + 1)) fun a b ha hb => by
      obtain ⟨k, hk, rfl⟩ := ha
      obtain ⟨i, y, hi, _, _⟩ := hb
      have := hF x k hk
      dsimp only
      omega
    have heq : firstFault f n0 (x :: xs) = ((f x).map fun k => (n0, k)).or (firstFault f (n0 + 1) xs) := by
      show (match f x with
        | some k => some (n0, k)
        | none => firstFault f (n0 + 1) xs) = _
      cases f x <;> rfl
    rw [heq]
    refine hor.congr fun a => ⟨?_, ?_⟩
    · rintro (⟨k, hk, rfl⟩ | ⟨i, y, hi, hy, hk⟩)
      · exact ⟨0, x, rfl, rfl, hk⟩
      · exact ⟨i + 1, y, by omega, hy, hk⟩
    · rintro ⟨i, y, hi, hy, hk⟩
      cases i with
      | zero =>
        cases hy
        exact Or.inl ⟨a.2, hk, Prod.ext hi rfl⟩
      | succ i => exact Or.inr ⟨i, y, by omega, hy, hk⟩

theorem slotFails_lt {u : SeqUnit} {t : Slot} {k : Nat} (h : slotFails u t k) : k < 6 := by
  obtain ⟨_, h⟩ := h
  split at h
  case h_4 => exact h.elim
  all_goals decide

theorem postingFails_lt {s : State} {r : PostRec} {k : Nat} (h : postingFails s r k) : k < 6 := by
  rcases h with ⟨rfl, _⟩ | ⟨rfl, _⟩ <;> decide

theorem Bank.data_getElem? {α : Type} {n : Nat} (b : Bank α n) (i : Nat) (x : α) :
    b.data[i]? = some x ↔ ∃ j : Fin n, i = j.val ∧ x = b.get j := by
  rw [List.getElem?_eq_some_iff]
  constructor
  · rintro ⟨h, rfl⟩
    have hn : i < n := by rwa [Bank.data_length b] at h
    exact ⟨⟨i, hn⟩, rfl, Bank.getElem_data b i h hn⟩
  · rintro ⟨j, rfl, rfl⟩
    have h : j.val < b.data.length := by rw [Bank.data_length b]; exact j.isLt
    exact ⟨h, Bank.getElem_data b j.val h j.isLt⟩

theorem getElem?_take_eq_some {α : Type} (l : List α) (n i : Nat) (x : α) :
    (l.take n)[i]? = some x ↔ i < n ∧ l[i]? = some x := by
  rw [List.getElem?_take]
  split <;> simp_all

/-- A fault of one record by item, number and fault (R139). -/
def recordArmFails (s : State) (r : StateRec) (a : Nat × Nat × Nat) : Prop :=
  (a.1 = 1 ∧ ∃ j : Fin 4, a.2.1 = j.val ∧ slotFails s.seq (r.slots.get j) a.2.2)
  ∨ (a.1 = 2 ∧ ∃ j : Fin 4, a.2.1 = j.val ∧ j.val < r.count.toNat ∧ postingFails s (r.postings.get j) a.2.2)

theorem State.recordFault_least (s : State) (r : StateRec) :
    LeastBy (fun a : Nat × Nat × Nat => (a.1 * 6 + a.2.1) * 6 + a.2.2) (recordArmFails s r) (s.recordFault r) := by
  have hslots := LeastBy.map (g := fun a : Nat × Nat => (1, a.1, a.2))
    (key' := fun a : Nat × Nat × Nat => (a.1 * 6 + a.2.1) * 6 + a.2.2)
    (firstFault_least s.seq.slotFault_least (fun _ _ => slotFails_lt) 0 r.slots.data) fun a b h => by
      dsimp only at h ⊢
      omega
  have hposts := LeastBy.map (g := fun a : Nat × Nat => (2, a.1, a.2))
    (key' := fun a : Nat × Nat × Nat => (a.1 * 6 + a.2.1) * 6 + a.2.2)
    (firstFault_least s.postingFault_least (fun _ _ => postingFails_lt) 0 r.entryPostings) fun a b h => by
      dsimp only at h ⊢
      omega
  have hlast : ∀ (i : Nat) (x : Slot), r.slots.data[i]? = some x → i < 4 := fun i x h => by
    obtain ⟨j, rfl, _⟩ := (Bank.data_getElem? _ _ _).1 h
    exact j.isLt
  have hor := LeastBy.or hslots hposts fun a b ha hb => by
    obtain ⟨⟨n, k⟩, ⟨i, x, hi, hx, hk⟩, rfl⟩ := ha
    obtain ⟨⟨m, l⟩, _, rfl⟩ := hb
    have := slotFails_lt hk
    have := hlast i x hx
    dsimp only at hi ⊢
    omega
  have heq : s.recordFault r = ((firstFault s.seq.slotFault 0 r.slots.data).map fun a => (1, a.1, a.2)).or
      ((firstFault s.postingFault 0 r.entryPostings).map fun a => (2, a.1, a.2)) := by
    unfold State.recordFault
    cases firstFault s.seq.slotFault 0 r.slots.data with
    | some a => rfl
    | none => cases firstFault s.postingFault 0 r.entryPostings <;> rfl
  rw [heq]
  refine hor.congr fun a => ?_
  obtain ⟨item, n, k⟩ := a
  refine or_congr ?_ ?_
  · constructor
    · rintro ⟨⟨n', k'⟩, ⟨i, x, hi, hx, hk⟩, he⟩
      cases he
      obtain ⟨j, rfl, rfl⟩ := (Bank.data_getElem? _ _ _).1 hx
      exact ⟨rfl, j, hi.trans (Nat.zero_add _), hk⟩
    · rintro ⟨hitem, j, hj, hk⟩
      cases hitem
      exact ⟨(n, k), ⟨j.val, _, hj.trans (Nat.zero_add _).symm, (Bank.data_getElem? _ _ _).2 ⟨j, rfl, rfl⟩, hk⟩, rfl⟩
  · constructor
    · rintro ⟨⟨n', k'⟩, ⟨i, x, hi, hx, hk⟩, he⟩
      cases he
      obtain ⟨hlt, hx⟩ : i < r.count.toNat ∧ r.postings.data[i]? = some x := by
        rwa [StateRec.entryPostings, getElem?_take_eq_some] at hx
      obtain ⟨j, rfl, rfl⟩ := (Bank.data_getElem? _ _ _).1 hx
      exact ⟨rfl, j, hi.trans (Nat.zero_add _), hlt, hk⟩
    · rintro ⟨hitem, j, hj, hlt, hk⟩
      cases hitem
      refine ⟨(n, k), ⟨j.val, _, hj.trans (Nat.zero_add _).symm, ?_, hk⟩, rfl⟩
      rw [StateRec.entryPostings, getElem?_take_eq_some]
      exact ⟨hlt, (Bank.data_getElem? _ _ _).2 ⟨j, rfl, rfl⟩⟩

/-- The order of SEQ_ARM's tests of a fault's place, item, number and fault. -/
def armKey (a : Nat × Nat × Nat × Nat) : Nat := armOrder a.1 a.2.1 a.2.2.1 a.2.2.2

/-- A fault of a defined state of a list. -/
def statesArmFails (s : State) (ls : List LineId) (a : Nat × Nat × Nat × Nat) : Prop :=
  ∃ l ∈ ls, a.1 = l.val ∧ (s.seq.table.get l).defined ≠ 0 ∧ recordArmFails s (s.seq.table.get l) a.2

theorem recordArmFails_bounds {s : State} {r : StateRec} {a : Nat × Nat × Nat} (h : recordArmFails s r a) :
    1 ≤ a.1 ∧ a.1 ≤ 2 ∧ a.2.1 < 4 ∧ a.2.2 < 6 := by
  rcases h with ⟨hi, j, hj, hk⟩ | ⟨hi, j, hj, _, hk⟩
  · exact ⟨by omega, by omega, by omega, slotFails_lt hk⟩
  · exact ⟨by omega, by omega, by omega, postingFails_lt hk⟩

theorem armKey_state (l : LineId) (a : Nat × Nat × Nat) :
    armKey (l.val, a) = (((l.val + 1) * 3 + a.1) * 6 + a.2.1) * 6 + a.2.2 := by
  have h10 : l.val ≠ 10 := by have := l.isLt; omega
  simp [armKey, armOrder, h10]

theorem armKey_any (n k : Nat) : armKey (11, 1, n, k) = ((12 * 3 + 1) * 6 + n) * 6 + k := rfl

theorem State.statesFault_least (s : State) (ls : List LineId) (hsorted : ls.Pairwise (· < ·)) :
    LeastBy armKey (statesArmFails s ls) (s.statesFault ls) := by
  induction ls with
  | nil =>
    rintro a ⟨l, hl, _⟩
    cases hl
  | cons l ls ih =>
    obtain ⟨hl, hls⟩ := List.pairwise_cons.1 hsorted
    have hone : LeastBy (fun a : Nat × Nat × Nat => (a.1 * 6 + a.2.1) * 6 + a.2.2)
        (fun a => (s.seq.table.get l).defined ≠ 0 ∧ recordArmFails s (s.seq.table.get l) a)
        (if s.seq.isDefined l then s.recordFault (s.seq.table.get l) else none) := by
      by_cases hd : s.seq.isDefined l = true
      · rw [if_pos hd]
        exact (s.recordFault_least _).congr fun a => (and_iff_right ((s.seq.isDefined_iff l).1 hd)).symm
      · rw [if_neg hd]
        exact fun a ha => hd ((s.seq.isDefined_iff l).2 ha.1)
    have hmap := LeastBy.map (g := fun a : Nat × Nat × Nat => (l.val, a)) (key' := armKey) hone fun a b h => by
      rw [armKey_state, armKey_state]
      omega
    have hor := LeastBy.or hmap (ih hls) fun a b ha hb => by
      obtain ⟨x, ⟨_, hx⟩, rfl⟩ := ha
      obtain ⟨m, hm, hbm, _, hy⟩ := hb
      obtain ⟨p, y⟩ := b
      dsimp only at hbm hy
      subst hbm
      have hlt : l.val < m.val := hl m hm
      have := recordArmFails_bounds hx
      have := recordArmFails_bounds hy
      rw [armKey_state, armKey_state]
      omega
    have heq : s.statesFault (l :: ls) =
        ((if s.seq.isDefined l then s.recordFault (s.seq.table.get l) else none).map fun a => (l.val, a)).or
          (s.statesFault ls) := by
      show (match (if s.seq.isDefined l then s.recordFault (s.seq.table.get l) else none) with
        | some (item, n, k) => some (l.val, item, n, k)
        | none => s.statesFault ls) = _
      cases (if s.seq.isDefined l then s.recordFault (s.seq.table.get l) else none) <;> rfl
    rw [heq]
    refine hor.congr fun a => ⟨?_, ?_⟩
    · rintro (⟨x, ⟨hd, hx⟩, rfl⟩ | ⟨m, hm, h⟩)
      · exact ⟨l, List.mem_cons_self .., rfl, hd, hx⟩
      · exact ⟨m, List.mem_cons_of_mem _ hm, h⟩
    · rintro ⟨m, hm, ha, hd, hx⟩
      rcases List.mem_cons.1 hm with rfl | hm
      · exact Or.inl ⟨a.2, ⟨hd, hx⟩, Prod.ext ha rfl⟩
      · exact Or.inr ⟨m, hm, ha, hd, hx⟩

/-- A fault of SEQ_ARM, as one record. -/
def armFailsAt (s : State) (home : LineId) (a : Nat × Nat × Nat × Nat) : Prop :=
  armFails s home a.1 a.2.1 a.2.2.1 a.2.2.2

/-- The faults of SEQ_ARM are the undefined home state, those of the defined states, and those of the any-state section. -/
theorem armFailsAt_iff (s : State) (home : LineId) (a : Nat × Nat × Nat × Nat) : armFailsAt s home a ↔
    (a = (10, 0, 0, 0) ∧ (s.seq.table.get home).defined = 0)
    ∨ statesArmFails s (List.finRange 10) a
    ∨ ∃ b : Nat × Nat, (∃ i x, b.1 = 0 + i ∧ s.seq.anySlots.data[i]? = some x ∧ slotFails s.seq x b.2)
      ∧ a = (11, 1, b.1, b.2) := by
  obtain ⟨place, item, n, k⟩ := a
  have hany : (∃ b : Nat × Nat, (∃ i x, b.1 = 0 + i ∧ s.seq.anySlots.data[i]? = some x ∧ slotFails s.seq x b.2)
      ∧ (place, item, n, k) = (11, 1, b.1, b.2)) ↔
      place = 11 ∧ item = 1 ∧ ∃ j : Fin 6, n = j.val ∧ slotFails s.seq (s.seq.anySlots.get j) k := by
    constructor
    · rintro ⟨⟨n', k'⟩, ⟨i, x, hi, hx, hk⟩, he⟩
      cases he
      obtain ⟨j, rfl, rfl⟩ := (Bank.data_getElem? _ _ _).1 hx
      exact ⟨rfl, rfl, j, hi.trans (Nat.zero_add _), hk⟩
    · rintro ⟨rfl, rfl, j, rfl, hk⟩
      exact ⟨(j.val, k), ⟨j.val, _, (Nat.zero_add _).symm, (Bank.data_getElem? _ _ _).2 ⟨j, rfl, rfl⟩, hk⟩, rfl⟩
  have hstates : statesArmFails s (List.finRange 10) (place, item, n, k) ↔
      ∃ l : LineId, place = l.val ∧ (s.seq.table.get l).defined ≠ 0
        ∧ recordArmFails s (s.seq.table.get l) (item, n, k) :=
    ⟨fun ⟨l, _, h⟩ => ⟨l, h⟩, fun ⟨l, h⟩ => ⟨l, List.mem_finRange l, h⟩⟩
  rw [hany, hstates]
  unfold armFailsAt armFails recordArmFails
  dsimp only
  split
  · simp [and_assoc]
  · simp
  · simp
  · next h0 h1 h2 => simp [show item ≠ 0 from h0, show item ≠ 1 from h1, show item ≠ 2 from h2]

theorem State.armFault_least (s : State) (home : LineId) : LeastBy armKey (armFailsAt s home) (s.armFault home) := by
  by_cases hd : s.seq.isDefined home = true
  · have hdef := (s.seq.isDefined_iff home).1 hd
    have hany := LeastBy.map (g := fun a : Nat × Nat => (11, 1, a.1, a.2)) (key' := armKey)
      (firstFault_least s.seq.slotFault_least (fun _ _ => slotFails_lt) 0 s.seq.anySlots.data) fun a b h => by
        rw [armKey_any, armKey_any]
        omega
    have hor := LeastBy.or (s.statesFault_least (List.finRange 10) (by decide)) hany fun a b ha hb => by
      obtain ⟨l, _, hl, _, hx⟩ := ha
      obtain ⟨⟨n, k⟩, _, rfl⟩ := hb
      obtain ⟨p, x⟩ := a
      dsimp only at hl hx
      subst hl
      have := recordArmFails_bounds hx
      have := l.isLt
      rw [armKey_state, armKey_any]
      omega
    have heq : s.armFault home = (s.statesFault (List.finRange 10)).or
        ((firstFault s.seq.slotFault 0 s.seq.anySlots.data).map fun a => (11, 1, a.1, a.2)) := by
      unfold State.armFault
      rw [if_neg (by simp [hd])]
      cases s.statesFault (List.finRange 10) with
      | some a => rfl
      | none => cases firstFault s.seq.slotFault 0 s.seq.anySlots.data <;> rfl
    rw [heq]
    refine hor.congr fun a => ?_
    rw [armFailsAt_iff]
    exact ⟨Or.inr, fun h => h.resolve_left fun h => hdef h.2⟩
  · have hun : (s.seq.table.get home).defined = 0 := by
      by_contra h
      exact hd ((s.seq.isDefined_iff home).2 h)
    unfold State.armFault
    rw [if_pos (by simpa using hd)]
    exact ⟨(armFailsAt_iff ..).2 (Or.inl ⟨rfl, hun⟩), fun b _ => Nat.zero_le _⟩

/-! ### A sound table -/

/-- A slot is sound where no slot test fails (R139). -/
theorem slotSound_iff (u : SeqUnit) (t : Slot) : slotSound u t ↔ ∀ k, ¬slotFails u t k := by
  constructor
  · rintro (h0 | ⟨htarget, hneg, hindex⟩) k ⟨hs, hk⟩
    · exact hs h0
    · split at hk
      · exact hk htarget
      · exact hk.2 (hneg hk.1)
      · exact absurd hk (Nat.not_lt.2 hindex)
      · exact hk
  · intro h
    by_cases h0 : t.source = 0
    · exact Or.inl h0
    · refine Or.inr ⟨?_, fun hn => ?_, ?_⟩
      · by_contra hc
        exact h 1 ⟨h0, hc⟩
      · by_contra hc
        exact h 2 ⟨h0, hn, hc⟩
      · exact Nat.not_lt.1 fun hc => h 3 ⟨h0, hc⟩

theorem recordFails_ge {s : State} {r : PostRec} {n : Nat} (h : recordFails s r n) : 1 ≤ n := by
  rcases Nat.eq_zero_or_pos n with rfl | hn
  · exact h.elim
  · exact hn

theorem postingSound_iff (s : State) (r : PostRec) : postingSound s r ↔ ∀ k, ¬postingFails s r k := by
  constructor
  · rintro h k (⟨rfl, h1⟩ | ⟨rfl, n, hn, hf⟩)
    · exact h 1 (by decide) h1
    · exact h n (by omega) hf
  · intro h n hn hf
    have := recordFails_ge hf
    rcases Nat.lt_or_ge n 3 with hlt | hge
    · obtain rfl : n = 1 := by omega
      exact h 4 (Or.inl ⟨rfl, hf⟩)
    · exact h 5 (Or.inr ⟨rfl, n, hge, hf⟩)

theorem armFailsAt_bounds {s : State} {home : LineId} {a : Nat × Nat × Nat × Nat} (h : armFailsAt s home a) :
    a.2.1 < 3 ∧ a.2.2.1 < 6 ∧ a.2.2.2 < 6 := by
  rcases (armFailsAt_iff ..).1 h with ⟨rfl, _⟩ | ⟨l, _, _, _, hr⟩ | ⟨b, ⟨i, x, hi, hx, hk⟩, rfl⟩
  · exact ⟨by decide, by decide, by decide⟩
  · have := recordArmFails_bounds hr
    omega
  · obtain ⟨j, rfl, _⟩ := (Bank.data_getElem? _ _ _).1 hx
    have := slotFails_lt hk
    exact ⟨Nat.lt_succ_of_le (Nat.le_succ 1), show b.1 < 6 by omega, this⟩

/-- The order of the tests tells the faults apart (R139). -/
theorem armKey_inj {s : State} {home : LineId} {a b : Nat × Nat × Nat × Nat} (ha : armFailsAt s home a)
    (hb : armFailsAt s home b) (h : armKey a = armKey b) : b = a := by
  have h1 := armFailsAt_bounds ha
  have h2 := armFailsAt_bounds hb
  obtain ⟨p, i, n, k⟩ := a
  obtain ⟨q, j, m, l⟩ := b
  unfold armKey armOrder at h
  dsimp only at h h1 h2
  have hplace : (if p = 10 then 0 else p + 1) = if q = 10 then 0 else q + 1 := by omega
  obtain ⟨rfl, rfl, rfl⟩ : i = j ∧ n = m ∧ k = l := by omega
  have hpq : p = q := by
    split at hplace <;> split at hplace <;> omega
  rw [hpq]

/-- No fault is found in a sound table alone (R139). -/
theorem State.armFault_eq_none_iff (s : State) (home : LineId) : s.armFault home = none ↔
    (s.seq.table.get home).defined ≠ 0
    ∧ (∀ l : LineId, (s.seq.table.get l).defined ≠ 0 →
      (∀ k : Fin 4, slotSound s.seq ((s.seq.table.get l).slots.get k))
      ∧ ∀ k : Fin 4, k.val < (s.seq.table.get l).count.toNat → postingSound s ((s.seq.table.get l).postings.get k))
    ∧ ∀ k : Fin 6, slotSound s.seq (s.seq.anySlots.get k) := by
  rw [(s.armFault_least home).eq_none_iff]
  simp only [slotSound_iff, postingSound_iff]
  constructor
  · intro h
    refine ⟨fun h0 => h (10, 0, 0, 0) ⟨rfl, rfl, rfl, h0⟩, fun l hl => ⟨fun j k hk => ?_, fun j hj k hk => ?_⟩,
      fun j k hk => ?_⟩
    · exact h (l.val, 1, j.val, k) (Or.inl ⟨l, rfl, hl, j, rfl, hk⟩)
    · exact h (l.val, 2, j.val, k) ⟨l, rfl, hl, j, rfl, hj, hk⟩
    · exact h (11, 1, j.val, k) (Or.inr ⟨rfl, j, rfl, hk⟩)
  · rintro ⟨hhome, hstates, hany⟩ a ha
    rcases (armFailsAt_iff ..).1 ha with ⟨_, h0⟩ | ⟨l, _, _, hl, ⟨_, j, _, hk⟩ | ⟨_, j, _, hj, hk⟩⟩ | ⟨b, ⟨i, x, _, hx, hk⟩, _⟩
    · exact hhome h0
    · exact (hstates l hl).1 j _ hk
    · exact (hstates l hl).2 j hj _ hk
    · obtain ⟨j, _, rfl⟩ := (Bank.data_getElem? _ _ _).1 hx
      exact hany j _ hk

/-! ### The request -/

/-- SEQ_ARM on a DISABLED unit with a valid state number (R139, R140). -/
theorem State.takeSeqArm_of_line {s : State} {h : Byte} {l : LineId} (hu : s.seq.unit = .disabled)
    (hl : h.toNat = l.val) : s.takeSeqArm [h] = match s.armFault l with
      | some (place, item, n, k) => .refuse .badTable [natByte place, natByte item, natByte n, natByte k] s
      | none => .ok [natByte l.val, natByte (s.arm l).2.seq.unit.code, natByte (s.arm l).1.1, natByte (s.arm l).1.2]
          (s.arm l).2 := by
  have hline : lineOf (byteAt [h] 0) = some l := lineOf_eq_some.2 hl
  rw [State.takeSeqArm, if_neg (fun hn => hn hu), hline] <;> rfl

/-- The armed unit: HELD where HOME is LOW, else RUNNING (R140). -/
theorem State.arm_eq {s u : State} {l : LineId} {p d : Nat}
    (h : State.enterOutside l .arm { s with seq := { s.seq with
      unit := .running, home := some l, latches := .empty, held := .empty } } = ((p, d), u)) :
    s.arm l = ((p, d), { u with seq := { u.seq with
      unit := if s.home.filtered = .low then .held else .running } }) := by
  have hunit := State.enterLine_unit l .arm { s with seq := { s.seq with
      unit := .running, home := some l, latches := .empty, held := .empty } }
  have hu : u.seq.unit = .running := by
    have hout : (State.enterOutside l .arm { s with seq := { s.seq with
      unit := .running, home := some l, latches := .empty, held := .empty } }).2.seq.unit = .running := hunit
    rwa [h] at hout
  unfold State.arm
  dsimp only
  rw [h]
  split
  · rfl
  · rw [← hu]

/-- Settles O46. -/
theorem seqArmValidatesAndEnters : Obligations.SeqArmValidatesAndEnters := by
  refine ⟨State.armFault_eq_none_iff, fun s home place item n k hf hleast => ?_, fun tag h s hr hm => ?_⟩
  · exact (s.armFault_least home).eq_some (a := (place, item, n, k)) hf (fun b hb => hleast _ _ _ _ hb)
      fun b hb hkey => armKey_inj hf hb hkey
  · obtain ⟨t, he, ht⟩ := exec_take (k := .seqArm) rfl hr rfl ⟨rfl, inModes_of_run hm, rfl, rfl⟩ (c := .seqArm tag [h])
    refine ⟨t, he, fun hu => ht.of_answer (if_pos hu), fun hu hh => ht.of_answer ?_, fun l hu hl => ⟨?_, ?_⟩⟩
    · have hline : lineOf (byteAt [h] 0) = none := lineOf_eq_none.2 hh
      show s.takeSeqArm [h] = _
      rw [State.takeSeqArm, if_neg (fun hn => hn hu), hline]
      rfl
    · intro place item n k hfault
      refine ht.of_answer ((State.takeSeqArm_of_line hu hl).trans ?_)
      rw [hfault]
      rfl
    · rintro p d u unit hnone henter rfl
      refine ht.of_answer ((State.takeSeqArm_of_line hu hl).trans ?_)
      rw [hnone, State.arm_eq henter, natByte_of_toNat hl]
      by_cases hlow : s.home.filtered = .low
      · rw [if_pos hlow, if_pos hlow]
        rfl
      · rw [if_neg hlow, if_neg hlow]
        rfl

end Sys2Proof.Machine
end

section
/-! SUPPORT. Samples: the filters, the events taken in any order, releases of interlocks and the HOME pin. -/

namespace Sys2Proof.Machine

/-! ### The events of a sample, one by one -/

theorem exec_sample (ss : Half) (il : BitVec 4) (home : Level) (c : BitVec 6) (s : State) :
    exec (.sample ss il home c) s = .next (State.sample { s := ss, il := il, home := home, c := c } s).kick := rfl

theorem State.sample_of_none {v : Levels} {s : State} (h : s.pinEvents v = []) : State.sample v s = s.readSample v := by
  rw [State.sample, h]
  rfl

theorem State.sample_of_one {v : Levels} {s : State} {e : PinEvent} (h : s.pinEvents v = [e]) :
    State.sample v s = (s.readSample v).takePin e := by
  rw [State.sample, h]
  rfl

/-- An observation that some events set, and the others leave, is set once one of those that set it has been taken, in
whatever order (R99). -/
theorem State.takePins_obs {β : Type} {obs : State → β} {sets : PinEvent → Option β}
    (hset : ∀ e (s : State) b, sets e = some b → obs (s.takePin e) = b) (hkeep : ∀ e (s : State), sets e = none → obs (s.takePin e) = obs s)
    (hfree : ∀ n s, obs (s.pick n).2 = obs s) {b : β} (n : Nat) (es : List PinEvent) (s : State)
    (h : ∀ e ∈ es, sets e = none ∨ sets e = some b) (hb : obs s = b ∨ ∃ e ∈ es, sets e = some b)
    (hn : es.length ≤ n) : obs (State.takePins n es s) = b := by
  induction n generalizing es s with
  | zero =>
    rw [Nat.le_zero, List.length_eq_zero_iff] at hn
    subst hn
    exact hb.resolve_right (by simp)
  | succ n ih =>
    match es, h, hb, hn with
    | [], _, hb, _ => exact hb.resolve_right (by simp)
    | e0 :: es, h, hb, hn =>
      have hs : obs (s.pick (e0 :: es).length).2 = obs s := hfree _ s
      have hk := State.pick_lt (e0 :: es).length s (Nat.succ_pos _)
      unfold State.takePins
      dsimp only
      generalize (s.pick (e0 :: es).length).2 = s' at hs ⊢
      generalize (s.pick (e0 :: es).length).1 = k at hk ⊢
      rw [List.getElem?_eq_getElem hk]
      dsimp only
      have hmem : (e0 :: es)[k] ∈ e0 :: es := List.getElem_mem hk
      refine ih _ _ (fun e he => h e (List.mem_of_mem_eraseIdx he)) ?_ ?_
      · rcases h _ hmem with hnone | hsome
        · rw [hkeep _ s' hnone, hs]
          refine hb.imp_right ?_
          rintro ⟨e, he, hse⟩
          refine ⟨e, ?_, hse⟩
          obtain ⟨j, hj, rfl⟩ := List.mem_iff_getElem.1 he
          refine List.mem_eraseIdx_iff_getElem.2 ⟨j, hj, fun hjk => ?_, rfl⟩
          subst hjk
          rw [hnone] at hse
          cases hse
        · exact Or.inl (hset _ s' b hsome)
      · rw [List.length_eraseIdx_of_lt hk]
        omega

/-! ### The filters -/

/-- The filtered level and run of an input after a sample (R92, R105). -/
def filterStep (filter run : Nat) (filtered l : Level) : Level × Nat :=
  if l = filtered then (filtered, 0)
  else if filter ≤ min (run + 1) 15 then (l, 0)
  else (filtered, min (run + 1) 15)

theorem filterAccepts_iff (filter run : Nat) (filtered l : Level) :
    filterAccepts filter run filtered l = true ↔ l ≠ filtered ∧ filter ≤ min (run + 1) 15 := by
  rw [filterAccepts, Bool.and_eq_true, decide_eq_true_eq, decide_eq_true_eq, raiseRun]

theorem filterStep_of_accepts {filter run : Nat} {filtered l : Level} (h : filterAccepts filter run filtered l = true) :
    filterStep filter run filtered l = (l, 0) := by
  obtain ⟨hne, hle⟩ := (filterAccepts_iff ..).1 h
  rw [filterStep, if_neg hne, if_pos hle]

theorem filterStep_of_keeps {filter run : Nat} {filtered l : Level} (h : ¬filterAccepts filter run filtered l = true) :
    filterStep filter run filtered l = (filtered, nextRun run filtered l) := by
  rw [filterStep, nextRun, raiseRun]
  by_cases he : l = filtered
  · rw [if_pos he, if_pos he]
  · rw [if_neg he, if_neg he, if_neg fun hle => h ((filterAccepts_iff ..).2 ⟨he, hle⟩)]

/-! ### The events of a sample -/

theorem State.mem_pinEvents_edge (s : State) (v : Levels) (c : ChanId) (l : Level) :
    .edge c l ∈ s.pinEvents v ↔ s.senseChanges v c = true ∧ l = v.sense c := by
  simp only [State.pinEvents, List.mem_append, List.mem_map, List.mem_filter, PinEvent.edge.injEq]
  constructor
  · rintro ((⟨d, ⟨_, hd⟩, rfl, rfl⟩ | ⟨i, _, he⟩) | he)
    · exact ⟨hd, rfl⟩
    · cases he
    · split at he <;> simp at he
  · rintro ⟨hc, rfl⟩
    exact Or.inl (Or.inl ⟨c, ⟨mem_allChans c, hc⟩, rfl, rfl⟩)

theorem State.mem_pinEvents_interlock (s : State) (v : Levels) (i : IlId) (l : Level) :
    .interlock i l ∈ s.pinEvents v ↔ s.ilChanges v i = true ∧ l = v.interlock i := by
  simp only [State.pinEvents, List.mem_append, List.mem_map, List.mem_filter, PinEvent.interlock.injEq]
  constructor
  · rintro ((⟨d, _, he⟩ | ⟨j, ⟨_, hj⟩, rfl, rfl⟩) | he)
    · cases he
    · exact ⟨hj, rfl⟩
    · split at he <;> simp at he
  · rintro ⟨hi, rfl⟩
    exact Or.inl (Or.inr ⟨i, ⟨List.mem_finRange i, hi⟩, rfl, rfl⟩)

theorem State.mem_pinEvents_home (s : State) (v : Levels) (l : Level) :
    .home l ∈ s.pinEvents v ↔ s.homeChanges v = true ∧ l = v.home := by
  simp only [State.pinEvents, List.mem_append, List.mem_map, List.mem_filter]
  constructor
  · rintro ((⟨d, _, he⟩ | ⟨j, _, he⟩) | he)
    · cases he
    · cases he
    · split at he
      · next hc => exact ⟨hc, PinEvent.home.inj (List.mem_singleton.1 he)⟩
      · cases he
  · rintro ⟨hc, rfl⟩
    exact Or.inr (by rw [if_pos hc]; exact List.mem_singleton.2 rfl)

/-! ### What the events leave of the filters -/

/-- An edge sets the filtered level and the run of its own channel alone (R92). -/
theorem State.takeEdge_sense (c d : ChanId) (l : Level) (s : State) :
    (((s.takeEdge c l).senses.get d).filtered, ((s.takeEdge c l).senses.get d).run) =
      if d = c then (l, 0) else ((s.senses.get d).filtered, (s.senses.get d).run) := by
  have hmove : (((s.moveSense c l).senses.get d).filtered, ((s.moveSense c l).senses.get d).run) =
      if d = c then (l, 0) else ((s.senses.get d).filtered, (s.senses.get d).run) := by
    simp only [State.moveSense, Bank.get_set]
    split <;> rfl
  have hcap : ∀ (t : State) (e : EdgeDir), (((t.capture c e).senses.get d).filtered, ((t.capture c e).senses.get d).run)
      = ((t.senses.get d).filtered, (t.senses.get d).run) := fun t e => by
    simp only [State.capture, State.offer_senses, Bank.get_set, Sense.capturing]
    split
    · next h => rw [h]
    · rfl
  rw [← hmove]
  unfold State.takeEdge State.edgeInRun
  dsimp only
  split
  · split
    · split
      · rfl
      · exact hcap _ _
      · rw [State.endStop_senses]
        exact hcap _ _
    · rfl
  · split <;> rfl
  · rfl
  · rfl

/-- A filter after the whole sample: changed by its event, or its run counted on (R92, R105). -/
theorem State.sample_sense (v : Levels) (s : State) (c : ChanId) :
    (((State.sample v s).senses.get c).filtered, ((State.sample v s).senses.get c).run) =
      filterStep (s.chans.get c).cfg.filter (s.senses.get c).run (s.senses.get c).filtered (v.sense c) := by
  refine State.takePins_obs (obs := fun t : State => ((t.senses.get c).filtered, (t.senses.get c).run))
    (sets := fun e => match e with
      | .edge d l => if c = d then some (l, 0) else none
      | _ => none) ?_ ?_ ?_ _ _ _ ?_ ?_ le_rfl
  · intro e t b h
    cases e with
    | edge d l =>
      dsimp only at h
      split at h
      · next hcd =>
        cases h
        exact (State.takeEdge_sense d c l t).trans (if_pos hcd)
      · cases h
    | interlock i l => cases h
    | home l => cases h
  · intro e t h
    cases e with
    | edge d l =>
      dsimp only at h
      split at h
      · cases h
      · next hcd => exact (State.takeEdge_sense d c l t).trans (if_neg hcd)
    | interlock i l => simp [State.takePin]
    | home l => simp [State.takePin]
  · intro n t
    simp
  · intro e he
    cases e with
    | edge d l =>
      by_cases hcd : c = d
      · subst hcd
        obtain ⟨hch, rfl⟩ := (s.mem_pinEvents_edge v c l).1 he
        exact Or.inr ((if_pos rfl).trans (congrArg some (filterStep_of_accepts hch).symm))
      · exact Or.inl (if_neg hcd)
    | interlock i l => exact Or.inl rfl
    | home l => exact Or.inl rfl
  · by_cases hch : s.senseChanges v c = true
    · exact Or.inr ⟨.edge c (v.sense c), (s.mem_pinEvents_edge v c _).2 ⟨hch, rfl⟩,
        (if_pos rfl).trans (congrArg some (filterStep_of_accepts hch).symm)⟩
    · refine Or.inl ?_
      rw [filterStep_of_keeps hch]
      simp [State.readSample, hch]

/-- An interlock event sets its own interlock's filter alone (R105). -/
theorem State.takeIl_il (i j : IlId) (l : Level) (s : State) :
    (s.takeIl i l).ils.get j = if j = i then { s.ils.get i with filtered := l, run := 0 } else s.ils.get j := by
  have h : (s.takeIl i l).ils = (s.moveIl i l).ils := by
    unfold State.takeIl State.activate State.ilRelease State.rearm State.abortCheck
    dsimp only
    split
    · split <;> simp [State.leaveCheck]
    · split <;> simp
  rw [h]
  simp [State.moveIl]

theorem State.sample_il (v : Levels) (s : State) (i : IlId) :
    (((State.sample v s).ils.get i).filtered, ((State.sample v s).ils.get i).run) =
      filterStep (s.ils.get i).filter (s.ils.get i).run (s.ils.get i).filtered (v.interlock i) := by
  refine State.takePins_obs (obs := fun t : State => ((t.ils.get i).filtered, (t.ils.get i).run))
    (sets := fun e => match e with
      | .interlock j l => if i = j then some (l, 0) else none
      | _ => none) ?_ ?_ ?_ _ _ _ ?_ ?_ le_rfl
  · intro e t b h
    cases e with
    | edge d l => cases h
    | interlock j l =>
      dsimp only at h
      split at h
      · next hij =>
        cases h
        subst hij
        show ((((t.takeIl i l).ils.get i)).filtered, ((t.takeIl i l).ils.get i).run) = _
        rw [State.takeIl_il, if_pos rfl]
      · cases h
    | home l => cases h
  · intro e t h
    cases e with
    | edge d l => simp [State.takePin]
    | interlock j l =>
      dsimp only at h
      split at h
      · cases h
      · next hij =>
        show ((((t.takeIl j l).ils.get i)).filtered, ((t.takeIl j l).ils.get i).run) = _
        rw [State.takeIl_il, if_neg hij]
    | home l => simp [State.takePin]
  · intro n t
    simp
  · intro e he
    cases e with
    | edge d l => exact Or.inl rfl
    | interlock j l =>
      by_cases hij : i = j
      · subst hij
        obtain ⟨hch, rfl⟩ := (s.mem_pinEvents_interlock v i l).1 he
        exact Or.inr ((if_pos rfl).trans (congrArg some (filterStep_of_accepts hch).symm))
      · exact Or.inl (if_neg hij)
    | home l => exact Or.inl rfl
  · by_cases hch : s.ilChanges v i = true
    · exact Or.inr ⟨.interlock i (v.interlock i), (s.mem_pinEvents_interlock v i _).2 ⟨hch, rfl⟩,
        (if_pos rfl).trans (congrArg some (filterStep_of_accepts hch).symm)⟩
    · refine Or.inl ?_
      rw [filterStep_of_keeps hch]
      simp [State.readSample, hch]

theorem State.takeHome_home (l : Level) (s : State) :
    (s.takeHome l).home = { s.home with filtered := l, run := 0 } := by
  cases l with
  | low =>
    show (State.homeLow _).home = _
    unfold State.homeLow
    split
    · split <;> simp
    · rfl
  | high =>
    show (State.homeHigh _).home = _
    unfold State.homeHigh
    split <;> rfl

theorem State.sample_home (v : Levels) (s : State) : ((State.sample v s).home.filtered, (State.sample v s).home.run) =
      filterStep s.home.filter s.home.run s.home.filtered v.home := by
  refine State.takePins_obs (obs := fun t : State => (t.home.filtered, t.home.run))
    (sets := fun e => match e with
      | .home l => some (l, 0)
      | _ => none) ?_ ?_ ?_ _ _ _ ?_ ?_ le_rfl
  · intro e t b h
    cases e with
    | edge d l => cases h
    | interlock j l => cases h
    | home l =>
      cases h
      show ((t.takeHome l).home.filtered, (t.takeHome l).home.run) = _
      rw [State.takeHome_home]
  · intro e t h
    cases e with
    | edge d l => simp [State.takePin]
    | interlock j l => simp [State.takePin]
    | home l => cases h
  · intro n t
    simp
  · intro e he
    cases e with
    | edge d l => exact Or.inl rfl
    | interlock j l => exact Or.inl rfl
    | home l =>
      obtain ⟨hch, rfl⟩ := (s.mem_pinEvents_home v l).1 he
      exact Or.inr (congrArg some (filterStep_of_accepts hch).symm)
  · by_cases hch : s.homeChanges v = true
    · exact Or.inr ⟨.home v.home, (s.mem_pinEvents_home v _).2 ⟨hch, rfl⟩,
        congrArg some (filterStep_of_accepts hch).symm⟩
    · refine Or.inl ?_
      rw [filterStep_of_keeps hch]
      simp [State.readSample, hch]

/-- A sample that changes no filtered level counts the runs on (R92, R105, R169). -/
theorem State.readSample_of_none {v : Levels} {s : State} (h : s.pinEvents v = []) : s.readSample v = { s with
    pins := { s.pins with s := v.s, il := v.il, home := v.home, c := v.c }
    sampler := { phase := 0, cond := v.c }
    senses := s.senses.mapId fun c x => { x with run := if v.sense c = x.filtered then 0 else min (x.run + 1) 15 }
    ils := s.ils.mapId fun i x => { x with run := if v.interlock i = x.filtered then 0 else min (x.run + 1) 15 }
    home := { s.home with run := if v.home = s.home.filtered then 0 else min (s.home.run + 1) 15 }
    ctl := if s.ctl.mode = .starting ∧ s.pins.resetAsserted = false then
        { s.ctl with startCount := min (s.ctl.startCount + 1) 32 } else s.ctl } := by
  have hs : ∀ c, s.senseChanges v c = false := fun c => by
    by_contra hc
    have := (s.mem_pinEvents_edge v c _).2 ⟨by simpa using hc, rfl⟩
    rw [h] at this
    cases this
  have hi : ∀ i, s.ilChanges v i = false := fun i => by
    by_contra hc
    have := (s.mem_pinEvents_interlock v i _).2 ⟨by simpa using hc, rfl⟩
    rw [h] at this
    cases this
  have hh : s.homeChanges v = false := by
    by_contra hc
    have := (s.mem_pinEvents_home v _).2 ⟨by simpa using hc, rfl⟩
    rw [h] at this
    cases this
  simp only [State.readSample, hs, hi, hh, Bool.false_eq_true, if_false]
  rfl

/-- Settles O6: the filters by `State.takePins_obs`, the pins and the condition inputs by what the events leave. -/
theorem samplesAreFiltered : Obligations.SamplesAreFiltered := by
  refine ⟨fun ss il home c s => ⟨_, exec_sample ss il home c s, ?_, ?_, ?_, ?_⟩, fun ss il home c s h => ⟨_,
    exec_sample ss il home c s, ?_⟩⟩
  · rintro ch x l rfl rfl
    rw [State.kick_senses]
    exact State.sample_sense _ s ch
  · rintro i x l rfl rfl
    rw [State.kick_ils]
    exact State.sample_il _ s i
  · rw [State.kick_home]
    exact State.sample_home _ s
  · simp [State.sample, State.readSample]
  · have hb := State.kick_became (State.sample { s := ss, il := il, home := home, c := c } s)
    rw [State.sample_of_none h, State.readSample_of_none h] at hb ⊢
    exact hb

/-! ### HOME -/

/-- A change of HOME after its filtered level is set (R151, R152). -/
def State.homeEvent (l : Level) (s : State) : State :=
  match l with
  | .low => s.homeLow
  | .high => s.homeHigh

/-- HOME goes LOW (R151). -/
theorem State.homeLow_of_running {s : State} {h : LineId} (hu : s.seq.unit = .running) (hh : s.seq.home = some h) :
    s.homeLow = { (s.enterOutside h .homePin).2 with
      seq := { (s.enterOutside h .homePin).2.seq with unit := .held } } := by
  rw [State.homeLow, if_pos hu, hh] <;> rfl

theorem State.enterOutside_entered (l : LineId) (cause : EntryCause) (s : State) :
    (s.enterOutside l cause).2.seq.current = some l ∧ (s.enterOutside l cause).2.seq.dwell = 0 := by
  rw [State.enterOutside_eq]
  dsimp only
  rw [State.settleGate_seq, State.enterLine_seq]
  exact ⟨rfl, rfl⟩

/-- Settles O10. -/
theorem homePinHoldsAndReleases : Obligations.HomePinHoldsAndReleases := by
  intro ss il home c s l r h hr
  obtain ⟨hch, -⟩ := (s.mem_pinEvents_home _ l).1 (by rw [h]; exact List.mem_singleton.2 rfl)
  have hhome : (State.readSample { s := ss, il := il, home := home, c := c } s).home = s.home := if_pos hch
  have hw : State.sample { s := ss, il := il, home := home, c := c } s = r.homeEvent l := by
    rw [State.sample_of_one h, hr, ← hhome]
    cases l <;> rfl
  have hseq : r.seq = s.seq := by rw [hr]; rfl
  have hb := State.kick_became (r.homeEvent l)
  refine ⟨_, exec_sample ss il home c s, ?_, ?_, ?_, ?_⟩
  all_goals rw [hw]
  · rintro hl u rfl hu hhm rfl
    have he : r.homeEvent .low = { (r.enterOutside hl .homePin).2 with
        seq := { (r.enterOutside hl .homePin).2.seq with unit := .held } } :=
      State.homeLow_of_running (hseq ▸ hu) (hseq ▸ hhm)
    rw [he] at hb ⊢
    obtain ⟨hcur, hdwell⟩ := State.enterOutside_entered hl .homePin r
    rw [State.kick_seq]
    exact ⟨hb, hcur, hdwell⟩
  · rintro rfl hu
    have he : r.homeEvent .low = r := if_neg (hseq ▸ hu)
    rw [he] at hb ⊢
    exact hb
  · rintro rfl hu
    have he : r.homeEvent .high = { r with seq := { r.seq with unit := .running } } := if_pos (hseq ▸ hu)
    rw [he, hseq] at hb ⊢
    exact hb
  · rintro rfl hu
    have he : r.homeEvent .high = r := if_neg (hseq ▸ hu)
    rw [he] at hb ⊢
    exact hb

/-! ### A release -/

/-- A sample whose one event is a change of an interlock (R105). -/
theorem State.sample_of_interlock {v : Levels} {s : State} {i : IlId} {l : Level} {x : Interlock}
    (h : s.pinEvents v = [.interlock i l]) (hx : x = { s.ils.get i with filtered := l, run := 0 }) :
    State.sample v s = (if x.active then State.activate i else State.ilRelease)
      { s.readSample v with ils := (s.readSample v).ils.set i x } := by
  obtain ⟨hch, -⟩ := (s.mem_pinEvents_interlock v i l).1 (by rw [h]; exact List.mem_singleton.2 rfl)
  have hil : (s.readSample v).ils.get i = s.ils.get i := by
    simp [State.readSample, hch]
  have hmove : (s.readSample v).moveIl i l = { s.readSample v with ils := (s.readSample v).ils.set i x } := by
    rw [State.moveIl, hil, hx]
  have hget : (({ s.readSample v with ils := (s.readSample v).ils.set i x } : State).ils.get i) = x :=
    Bank.get_set_self _ _ _
  rw [State.sample_of_one h]
  show State.takeIl i l (s.readSample v) = _
  rw [State.takeIl, hmove]
  dsimp only
  rw [Bank.get_set_self]
  cases x.active <;> rfl

theorem State.readSample_mode {v : Levels} {s : State} : (s.readSample v).ctl.mode = s.ctl.mode := by
  unfold State.readSample
  dsimp only
  split <;> rfl

/-- The AUTO test made at once (R112, R113). -/
theorem State.rearm_eq (s : State) : s.rearm = { s with
    trips := s.trips.mapId fun c tr => if autoEligible s c then { latch := false, cause := 0 } else tr
    chans := s.chans.mapId fun c ch => if autoEligible s c then { ch with act := stoppedSet ch.act } else ch
    outs := s.rearm.outs } := by
  have h := s.autoTest_eq
  unfold State.rearm
  generalize s.autoTest = a at h ⊢
  rw [h]
  rfl

theorem State.rearm_outs (s : State) (c : ChanId) :
    (¬autoEligible s c → s.rearm.outs.get c = s.outs.get c)
    ∧ (autoEligible s c → Shows s.rearm c { s.outs.get c with compare := 0, side := .none } (s.rearm.outs.get c)) := by
  refine ⟨fun h => ?_, fun h => ?_⟩
  · have hr : s.rearmable c = false := by
      rw [← Bool.not_eq_true, State.rearmable_iff]
      exact h
    have ho : s.autoTest.outs.get c = s.outs.get c := (State.autoTest_outs s c).trans (if_neg h)
    simp [State.rearm, State.settleOn, hr, ho]
  · have hs := State.settleOn_shows s.rearmable s.autoTest c ((s.rearmable_iff c).2 h)
    rw [State.autoTest_outs, State.rearmedOut, if_pos h] at hs
    exact hs

/-- Settles O9. -/
theorem releaseRearmsInSetup : Obligations.ReleaseRearmsInSetup := by
  intro ss il home c s i l r x h hx hact hr
  have hoff : x.active = false := by
    rw [← Bool.not_eq_true, Interlock.active_iff]
    exact hact
  have hw : State.sample { s := ss, il := il, home := home, c := c } s = r.ilRelease := by
    rw [State.sample_of_interlock h hx, hoff, hr] <;> rfl
  have hmode : r.ctl.mode = s.ctl.mode := by
    rw [hr]
    exact State.readSample_mode (v := { s := ss, il := il, home := home, c := c })
  have htrips : r.trips = s.trips := by rw [hr]; rfl
  have hchans : r.chans = s.chans := by rw [hr]; rfl
  have houts : r.outs = s.outs := by rw [hr]; rfl
  refine ⟨_, exec_sample ss il home c s, fun hm => ?_, fun hm => ?_⟩
  all_goals rw [hw]
  · have hrel : r.ilRelease = r := by
      rw [← hmode] at hm
      unfold State.ilRelease
      split
      · next h => exact absurd h hm
      · rfl
    have hb := State.kick_became r.ilRelease
    rw [hrel] at hb ⊢
    exact hb
  · have hrel : r.ilRelease = r.rearm := by rw [State.ilRelease, hmode, hm]
    have hb := State.kick_became r.rearm
    have heq := r.rearm_eq
    rw [hrel, State.kick_outs]
    refine ⟨?_, fun d hd => ?_, fun d hd => ?_⟩
    · rw [← htrips, ← hchans]
      generalize r.rearm = u at hb heq ⊢
      have hb' := hb
      rw [heq] at hb'
      rw [heq]
      exact hb'
    · rw [(r.rearm_outs d).1 hd, houts]
    · have hshow := (r.rearm_outs d).2 hd
      have hu : (r.chans.get d).mode ≠ .unused := hd.1
      have hidle : r.rearm.driveState d = .idle := by
        have hl : (r.rearm.trips.get d).latch = false := by rw [r.rearm_eq]; simp only [Bank.get_mapId, if_pos hd]
        have hu' : r.rearm.used d = true := by
          rw [State.used_iff, r.rearm_eq]
          simp only [Bank.get_mapId, if_pos hd]
          exact hu
        have hm' : r.rearm.ctl.mode = .setup := by rw [r.rearm_eq]; exact hmode.trans hm
        rw [State.driveState, if_pos hu', hm']
        exact if_neg (by rw [State.latched, hl]; exact Bool.false_ne_true)
      have hne : r.rearm.ctl.mode ≠ .starting := by
        rw [r.rearm_eq]
        show r.ctl.mode ≠ _
        rw [hmode, hm]
        exact OpMode.noConfusion
      refine ⟨(State.driveState_linkFree (State.kick_became r.rearm).1 d).trans hidle, hshow.kept.1, ?_⟩
      exact hshow.inactive_of_quiet hne (Or.inr (Or.inl hidle))

end Sys2Proof.Machine
end

section
/-! SUPPORT. Sense edges taken in each mode. -/

namespace Sys2Proof.Machine

/-! ### An edge and its capture -/

/-- A sample whose one event is an edge (R92, R93). -/
theorem State.sample_of_edge {v : Levels} {s : State} {c : ChanId} {l : Level} (h : s.pinEvents v = [.edge c l]) :
    State.sample v s = (s.readSample v).takeEdge c l
    ∧ (s.readSample v).moveSense c l = { s.readSample v with
      senses := (s.readSample v).senses.set c { s.senses.get c with filtered := l, run := 0 } }
    ∧ (s.readSample v).senses.get c = s.senses.get c := by
  obtain ⟨hch, -⟩ := (s.mem_pinEvents_edge v c l).1 (by rw [h]; exact List.mem_singleton.2 rfl)
  have hget : (s.readSample v).senses.get c = s.senses.get c := by simp [State.readSample, hch]
  exact ⟨State.sample_of_one h, by rw [State.moveSense, hget], hget⟩

theorem Bank.set_set {α : Type} {n : Nat} (b : Bank α n) (i : Fin n) (v w : α) : (b.set i v).set i w = b.set i w :=
  Bank.ext_get fun j => by
    simp only [Bank.get_set]
    split <;> rfl

theorem SenseEdge.selects_iff (e : SenseEdge) (l : Level) : e.selects (edgeTo l) = true ↔
    e = .both ∨ e = .rising ∧ l = .high ∨ e = .falling ∧ l = .low := by
  cases e <;> cases l <;> simp [SenseEdge.selects, edgeTo]

/-- The state after a captured edge, before an end-stop order (R95, R96). -/
def State.edgeCaptured (c : ChanId) (l : Level) (s r : State) : State := { r with
  senses := r.senses.set c
    { filtered := l, run := 0, captured := true
      overcaptured := (s.senses.get c).overcaptured || (s.senses.get c).captured
      capture := some
        { bnum := s.tb.bnum, frameIndex := s.tb.active.rep - s.tb.rep, counter := s.tb.counter
          dir := s.tb.dir, edge := if l = .high then .rising else .falling } }
  seq := if s.seq.unit = .running then
      { s.seq with latches := { s.seq.latches with senseEdge := s.seq.latches.senseEdge ||| oneChan c } }
    else s.seq
  link := s.link.offer (.channelEvent (oneChan c)) }

theorem State.capture_moved {v : Levels} {s : State} {c : ChanId} {l : Level} (h : s.pinEvents v = [.edge c l]) :
    ((s.readSample v).moveSense c l).capture c (edgeTo l) = State.edgeCaptured c l s (s.readSample v) := by
  obtain ⟨-, hmove, -⟩ := State.sample_of_edge h
  have hedge : edgeTo l = if l = .high then .rising else .falling := by cases l <;> rfl
  rw [hmove, State.capture]
  dsimp only
  rw [Bank.set_set, Bank.get_set_self, hedge]
  rfl

/-- The drive state of a channel is read from its record, the mode, the trips, the gate and the check. -/
theorem State.driveState_congr {s t : State} {c : ChanId} (hm : t.ctl.mode = s.ctl.mode)
    (hc : t.chans.get c = s.chans.get c) (ht : t.trips.get c = s.trips.get c) (hg : t.seq.gate = s.seq.gate)
    (hk : t.check = s.check) : t.driveState c = s.driveState c := by
  unfold State.driveState State.used State.latched State.admits
  rw [hm, hc, ht, hg, hk]

/-- A channel that drives in RUN is used, untripped and admitted (R64). -/
theorem State.admitted_of_drives {s : State} {c : ChanId} (hm : s.ctl.mode = .run)
    (hd : s.driveState c = .driving ∨ s.driveState c = .ramping) :
    (s.chans.get c).mode ≠ .unused ∧ (s.trips.get c).latch = false ∧ s.seq.gate.getLsbD c.val = true := by
  have hu : (s.chans.get c).mode ≠ .unused := by
    intro hu
    rw [State.driveState_of_unused (by simpa [hu] using s.used_iff c)] at hd
    rcases hd with hd | hd <;> cases hd
  have hl : (s.trips.get c).latch = false := by
    by_contra hl
    have : s.driveState c = .tripped := by
      rw [State.driveState, if_pos ((s.used_iff c).2 hu), hm]
      exact if_pos (by simpa [State.latched] using hl)
    rw [this] at hd
    rcases hd with hd | hd <;> cases hd
  refine ⟨hu, hl, ?_⟩
  by_contra hg
  rw [State.driveState_run hm hu hl, if_neg hg] at hd
  rcases hd with hd | hd <;> cases hd

/-! ### The end-stop order -/

theorem Channel.endStopped_eq (g : Channel) : g.endStopped = { g with act :=
    { g.act with drive := if g.cfg.endStop = .brake then .brake else .off, ramp := none } } := by
  unfold Channel.endStopped EndStop.drive
  cases g.cfg.endStop <;> rfl

/-- An end-stop order on a channel that drives in RUN (R68, R83). -/
theorem State.endStop_of_drives {s : State} {c : ChanId} (hm : s.ctl.mode = .run)
    (hd : s.driveState c = .driving ∨ s.driveState c = .ramping) :
    s.endStop c = { s with chans := s.chans.set c (s.chans.get c).endStopped, outs := (s.endStop c).outs }
    ∧ (∀ d, d ≠ c → (s.endStop c).outs.get d = s.outs.get d)
    ∧ Shows (s.endStop c) c (s.outs.get c) ((s.endStop c).outs.get c)
    ∧ (s.endStop c).driveState c = (if (s.chans.get c).cfg.endStop = .brake then .braked else .idle) := by
  have hb : s.endStop c = State.settleOn (fun d => decide (d = c))
      { s with chans := s.chans.set c (s.chans.get c).endStopped } :=
    if_pos ((DriveState.drives_iff _).2 hd)
  obtain ⟨hu, hl, hg⟩ := State.admitted_of_drives hm hd
  rw [hb]
  refine ⟨rfl, fun d hdc => ?_, State.settleOn_shows (fun d => decide (d = c)) _ c (by simp), ?_⟩
  · simp [State.settleOn, hdc]
  · have hrun : (State.settleOn (fun d => decide (d = c))
        { s with chans := s.chans.set c (s.chans.get c).endStopped }).driveState c
        = commandedState (s.chans.get c).endStopped.act := by
      rw [State.driveState_run (by exact hm) (by simpa [Channel.endStopped] using hu) (by exact hl)]
      refine (if_pos hg).trans ?_
      simp
    rw [hrun, Channel.endStopped_eq]
    split <;> rfl

/-- The pins of a channel under an end-stop order (R68, R82, R83). -/
theorem Shows.endStopped {s : State} {c : ChanId} {o u : Out} {stop : EndStop} (h : Shows s c o u)
    (hm : s.ctl.mode = .run) (hd : s.driveState c = (if stop = .brake then .braked else .idle)) :
    u.pinA ≠ .active ∧ (stop = .off → u.pinB ≠ .active) := by
  have hne : s.ctl.mode ≠ .starting := by rw [hm]; exact OpMode.noConfusion
  cases stop with
  | off =>
    obtain ⟨ha, hb⟩ := h.inactive_of_quiet hne (Or.inr (Or.inl hd))
    rw [ha, hb]
    exact ⟨PinDrive.noConfusion, fun _ => PinDrive.noConfusion⟩
  | brake =>
    refine ⟨fun hA => ?_, fun hs => by cases hs⟩
    have hw : ∀ ref side, s.wants c ref side = some (false, decide ((s.chans.get c).mode ≠ .single), false) :=
      fun ref side => by
        rw [State.wants, if_neg hne, hd]
        rfl
    obtain ⟨_, _, _, h⟩ := h
    rw [hw] at h
    obtain ⟨_, _, _, _, hAiff, _⟩ := h
    exact Bool.false_ne_true (hAiff.1 hA).1

/-! ### The edge in each mode -/

theorem State.takeEdge_quiet {c : ChanId} {l : Level} {s : State} (hm : s.ctl.mode = .setup ∨ s.ctl.mode = .starting) :
    s.takeEdge c l = s.moveSense c l := by
  unfold State.takeEdge
  dsimp only
  rcases hm with hm | hm
  · rw [show (s.moveSense c l).ctl.mode = .setup from hm]
  · rw [show (s.moveSense c l).ctl.mode = .starting from hm]

theorem State.countsEdge_iff {s : State} {q : CheckParams} {p : Position} (c : ChanId) (hq : s.check.params = some q)
    (hp : s.check.position = some p) : s.countsEdge c = true ↔
      visitChannel q.order p.place = c ∧ (p.step = .pulsePos ∨ p.step = .pulseNeg) := by
  rw [State.countsEdge, Bool.and_eq_true, decide_eq_true_eq, CheckEngine.channel_eq_some, hp]
  refine and_congr ⟨?_, fun h => ⟨q, p, hq, rfl, h⟩⟩ (CheckStep.isPulse_iff' p.step)
  rintro ⟨q', p', hq', hp', h⟩
  cases hq.symm.trans hq'
  cases hp'
  exact h

theorem State.takeEdge_check {s : State} {q : CheckParams} {p : Position} {c : ChanId} {l : Level}
    (hm : s.ctl.mode = .check) (hq : s.check.params = some q) (hp : s.check.position = some p) :
    s.takeEdge c l = { s.moveSense c l with
      check := if visitChannel q.order p.place = c ∧ (p.step = .pulsePos ∨ p.step = .pulseNeg) then
          { s.check with edges := min (s.check.edges + 1) 255 } else s.check } := by
  unfold State.takeEdge
  dsimp only
  rw [show (s.moveSense c l).ctl.mode = .check from hm]
  have hiff := State.countsEdge_iff (s := s.moveSense c l) c hq hp
  by_cases h : visitChannel q.order p.place = c ∧ (p.step = .pulsePos ∨ p.step = .pulseNeg)
  · rw [if_pos h]
    exact if_pos (hiff.2 h)
  · rw [if_neg h]
    exact if_neg fun hc => h (hiff.1 hc)

theorem State.takeEdge_run {s : State} {c : ChanId} {l : Level} (hm : s.ctl.mode = .run) :
    s.takeEdge c l = (s.moveSense c l).edgeInRun c (edgeTo l) := by
  unfold State.takeEdge
  dsimp only
  rw [show (s.moveSense c l).ctl.mode = .run from hm]

/-- An edge in RUN that is captured, and the end-stop order where its channel's role asks for it (R94). -/
theorem State.edgeInRun_of_selected {s : State} {c : ChanId} {e : EdgeDir}
    (he : (s.chans.get c).cfg.edge.selects e = true) (hr : (s.chans.get c).role ≠ .none) :
    s.edgeInRun c e = if (s.chans.get c).role = .endStop then (s.capture c e).endStop c else s.capture c e := by
  unfold State.edgeInRun
  dsimp only
  rw [if_pos he]
  cases h : (s.chans.get c).role with
  | none => exact absurd h hr
  | capture => rfl
  | endStop => rfl

theorem State.edgeInRun_of_other {s : State} {c : ChanId} {e : EdgeDir}
    (h : ¬((s.chans.get c).cfg.edge.selects e = true ∧ (s.chans.get c).role ≠ .none)) : s.edgeInRun c e = s := by
  unfold State.edgeInRun
  dsimp only
  split
  · next he =>
    have hr : (s.chans.get c).role = .none := by
      by_contra hr
      exact h ⟨he, hr⟩
    rw [hr]
  · rfl

/-- What a captured edge and its end-stop order leave of a part in RUN (R68, R94 to R96). -/
theorem State.edgeCaptured_became {s r : State} {ch : ChanId} {l : Level} (hm : s.ctl.mode = .run)
    (hmode : r.ctl.mode = .run) (hchans : r.chans = s.chans) (houts : r.outs = s.outs) (htrips : r.trips = s.trips)
    (hseq : r.seq = s.seq) (hcheck : r.check = s.check) :
    let g := s.chans.get ch
    let k := State.edgeCaptured ch l s r
    let t := (if g.role = .endStop then k.endStop ch else k).kick
    Became { k with
      chans :=
        if g.role = .endStop ∧ (s.driveState ch = .driving ∨ s.driveState ch = .ramping) then
          s.chans.set ch { g with act :=
            { g.act with drive := if g.cfg.endStop = .brake then .brake else .off, ramp := none } }
        else s.chans
      outs := t.outs } t
    ∧ (∀ d : ChanId, d ≠ ch → t.outs.get d = s.outs.get d)
    ∧ (g.role = .endStop ∧ (s.driveState ch = .driving ∨ s.driveState ch = .ramping) →
        t.driveState ch = (if g.cfg.endStop = .brake then .braked else .idle)
        ∧ Shows t ch (s.outs.get ch) (t.outs.get ch)
        ∧ (t.outs.get ch).pinA ≠ .active ∧ (g.cfg.endStop = .off → (t.outs.get ch).pinB ≠ .active))
    ∧ (¬(g.role = .endStop ∧ (s.driveState ch = .driving ∨ s.driveState ch = .ramping)) → t.outs = s.outs) := by
  intro g k t
  have hdrive : k.driveState ch = s.driveState ch := by
    refine State.driveState_congr (hmode.trans hm.symm) (by rw [← hchans]; rfl) (by rw [← htrips]; rfl) ?_ hcheck
    show (if s.seq.unit = .running then _ else s.seq).gate = _
    split <;> rfl
  have hkchans : k.chans = s.chans := hchans
  have hkouts : k.outs = s.outs := houts
  by_cases hstop : g.role = .endStop ∧ (s.driveState ch = .driving ∨ s.driveState ch = .ramping)
  · obtain ⟨hrole, hd⟩ := hstop
    have ht : t = (k.endStop ch).kick := by
      show (if g.role = .endStop then k.endStop ch else k).kick = _
      rw [if_pos hrole]
    obtain ⟨heq, hothers, hshow, hdrives⟩ := State.endStop_of_drives (s := k) (c := ch) hmode (hdrive ▸ hd)
    have hb := State.kick_became (k.endStop ch)
    have hout : t.outs = (k.endStop ch).outs := by rw [ht, State.kick_outs]
    rw [← ht] at hb
    rw [hkouts] at hothers hshow
    rw [hkchans, Channel.endStopped_eq] at heq
    rw [hkchans] at hdrives
    refine ⟨?_, fun d hdc => by rw [hout, hothers d hdc], fun _ => ?_, fun hn => absurd ⟨hrole, hd⟩ hn⟩
    · rw [if_pos ⟨hrole, hd⟩, hout]
      clear_value t
      generalize k.endStop ch = u at hb heq ⊢
      rw [heq] at hb
      exact hb
    · have hmode' : (k.endStop ch).ctl.mode = .run := by rw [heq]; exact hmode
      obtain ⟨hA, hB⟩ := hshow.endStopped (stop := g.cfg.endStop) hmode' hdrives
      rw [hout]
      exact ⟨(State.driveState_linkFree hb.1 ch).trans hdrives, Shows.linkFree hb.1 hshow, hA, hB⟩
  · have ht : t = k.kick := by
      show (if g.role = .endStop then k.endStop ch else k).kick = _
      split
      · next hrole =>
        have hd : ¬(k.driveState ch).drives = true := fun hd =>
          hstop ⟨hrole, hdrive ▸ (DriveState.drives_iff _).1 hd⟩
        rw [State.endStop, if_neg hd]
      · rfl
    have hb := State.kick_became k
    have hout : t.outs = s.outs := by rw [ht, State.kick_outs, hkouts]
    rw [← ht] at hb
    refine ⟨?_, fun d _ => by rw [hout], fun h => absurd h hstop, fun _ => hout⟩
    rw [if_neg hstop, hout, ← hkouts, ← hkchans]
    exact hb

/-- Settles O7, mode by mode. -/
theorem samplesTakeEdges : Obligations.SamplesTakeEdges := by
  refine ⟨?_, ?_, ?_⟩
  · rintro ss il home c s ch l hm h g x r rfl rfl rfl
    obtain ⟨hw, hmove, -⟩ := State.sample_of_edge h
    have hcap := State.capture_moved h
    generalize hr : State.readSample { s := ss, il := il, home := home, c := c } s = r at hw hmove hcap
    have hmode : r.ctl.mode = .run := by
      rw [← hr, State.readSample_mode]
      exact hm
    have hchans : r.chans = s.chans := by rw [← hr]; rfl
    have houts : r.outs = s.outs := by rw [← hr]; rfl
    rw [State.takeEdge_run hmode] at hw
    have hchans' : (r.moveSense ch l).chans = s.chans := hchans
    rw [← SenseEdge.selects_iff]
    refine ⟨_, exec_sample ss il home c s, fun hsel => ?_, fun hsel => ?_⟩
    · obtain ⟨he, hrole⟩ := hsel
      rw [State.edgeInRun_of_selected (by rw [hchans']; exact he) (by rw [hchans']; exact hrole), hcap, hchans'] at hw
      rw [hw]
      exact State.edgeCaptured_became hm hmode hchans houts (by rw [← hr]; rfl) (by rw [← hr]; rfl) (by rw [← hr]; rfl)
    · rw [State.edgeInRun_of_other (by rw [hchans']; exact hsel), hmove] at hw
      rw [hw]
      exact State.kick_became _
  · intro ss il home c s ch l q p hm hq hp h r hr
    obtain ⟨hw, hmove, -⟩ := State.sample_of_edge h
    rw [State.takeEdge_check (State.readSample_mode.trans hm) hq hp, hmove, ← hr] at hw
    refine ⟨_, exec_sample ss il home c s, ?_⟩
    rw [hw]
    have hcheck : r.check = s.check := by rw [hr]; rfl
    rw [hcheck]
    exact State.kick_became _
  · intro ss il home c s ch l r hm h hr
    obtain ⟨hw, hmove, -⟩ := State.sample_of_edge h
    rw [State.takeEdge_quiet (by rwa [State.readSample_mode]), hmove, ← hr] at hw
    refine ⟨_, exec_sample ss il home c s, ?_⟩
    rw [hw]
    exact State.kick_became _

end Sys2Proof.Machine
end

section
/-! SUPPORT. Interlock activations. -/

namespace Sys2Proof.Machine

/-- The entries that a mask's removal leaves, and how many left. -/
theorem State.countEntries_eq (sel : Entry → Bool) (s : State) : s.countEntries sel =
    s.queue.entries.length - (s.queue.entries.filter fun e => !sel e).length := by
  have h := List.length_eq_length_filter_add (l := s.queue.entries) sel
  rw [State.countEntries]
  omega

/-- What a trip by interlock `i` makes of the part, whether or not it has used members (R31, R38, R107, R109). -/
theorem State.tripMembers_eq {s : State} {i : IlId} {m : Half} {es : List Entry} (hm : MaskOf m (isMember s i))
    (hes : es = s.queue.entries.filter fun e => decide (¬isMember s i e.channel)) : s.tripMembers i = { s with
      trips := s.trips.mapId fun d tr =>
        if isMember s i d then { latch := true, cause := tr.cause ||| (1#4 <<< i.val) } else tr
      queue := if m = 0 then s.queue else afterRemoval s.queue es
      link := if m = 0 then s.link
        else (flowOfRemoval s.queue es s.link).offer (.trip i m (s.queue.entries.length - es.length)) } := by
  have hmask : m = s.memberMask i := hm.eq (s.maskOf_memberMask i)
  have htrips : (s.tripMembers i).trips = s.trips.mapId fun d tr =>
      if isMember s i d then { latch := true, cause := tr.cause ||| (1#4 <<< i.val) } else tr :=
    Bank.ext_get fun d => by
      rw [State.tripMembers_trips, Bank.get_mapId]
      exact if_congr (s.member_iff i d) rfl rfl
  have hleft : s.queue.entries.filter (fun e => !s.member i e.channel) = es := by
    rw [hes]
    refine List.filter_congr fun e _ => ?_
    rw [Bool.eq_iff_iff, Bool.not_eq_true', ← Bool.not_eq_true, State.member_iff, decide_eq_true_eq]
  rw [← htrips]
  by_cases h0 : m = 0
  · rw [if_pos h0, if_pos h0, State.tripMembers_of_none (hmask ▸ h0)]
  · rw [if_neg h0, if_neg h0, State.tripMembers_of_members (hmask ▸ h0), State.removeEntries_eq, State.countEntries_eq,
      ← hmask, State.setLatches_queue, hleft]
    rfl

/-- The safe pattern of a tripped channel at the pins (R82). -/
theorem Shows.safePattern {s : State} {c : ChanId} {o u : Out} (h : Shows s c o u) (hd : s.driveState c = .tripped) :
    u.pinA ≠ .active
    ∧ ((s.chans.get c).cfg.safe = .inactive → u.pinA = .inactive ∧ u.pinB = .inactive)
    ∧ ((s.chans.get c).cfg.safe = .float → u.pinA = .released ∧ u.pinB = .released)
    ∧ ((s.chans.get c).cfg.safe = .brake ∧ (s.chans.get c).mode = .single → u.pinB = .inactive)
    ∧ ((s.chans.get c).cfg.safe = .brake ∧ (s.chans.get c).mode ≠ .single →
        (u.pinB = .active ↔ o.pinB = .active ∨ (s.chans.get c).deadTime ≤ o.offA)) := by
  have hm : s.ctl.mode ≠ .starting := fun e => by
    rw [s.driveState_of_starting e c] at hd
    cases hd
  obtain ⟨hoff, hfloat⟩ := h.tripped hd
  by_cases hs : (s.chans.get c).cfg.safe = .brake
  · obtain ⟨_, _, _, h⟩ := h
    have hw : ∀ ref side, s.wants c ref side = some (false, decide ((s.chans.get c).mode ≠ .single), false) :=
      fun ref side => by
        rw [State.wants, if_neg hm, hd, hs]
        rfl
    rw [hw] at h
    obtain ⟨_, _, _, _, hA, hB, _, hBoff, _⟩ := h
    have hAoff : u.pinA ≠ .active := fun hact => Bool.false_ne_true (hA.1 hact).1
    refine ⟨hAoff, hoff, hfloat, fun ⟨_, hsingle⟩ => (hBoff fun hact => ?_).1, fun ⟨_, hpair⟩ => ?_⟩
    · exact of_decide_eq_true (hB.1 hact).1 hsingle
    · rw [hB]
      simp [hpair, hAoff]
  · have hboth : u.pinA = .inactive ∨ u.pinA = .released := by
      cases hsafe : (s.chans.get c).cfg.safe with
      | inactive => exact .inl (hoff hsafe).1
      | float => exact .inr (hfloat hsafe).1
      | brake => exact absurd hsafe hs
    refine ⟨?_, hoff, hfloat, fun ⟨h, _⟩ => absurd h hs, fun ⟨h, _⟩ => absurd h hs⟩
    rcases hboth with e | e <;> rw [e] <;> exact PinDrive.noConfusion

/-- A latched channel is TRIPPED in SETUP and RUN (R64). -/
theorem State.driveState_of_latched {s : State} {c : ChanId} (hm : s.ctl.mode = .setup ∨ s.ctl.mode = .run)
    (hu : (s.chans.get c).mode ≠ .unused) (hl : (s.trips.get c).latch = true) : s.driveState c = .tripped := by
  rw [State.driveState, if_pos ((s.used_iff c).2 hu)]
  rcases hm with hm | hm <;> rw [hm] <;> exact if_pos hl

/-- A member of an ACTIVE interlock is not eligible for AUTO rearm (R111). -/
theorem not_autoEligible_of_active {s : State} {i : IlId} {d : ChanId} (hd : isMember s i d)
    (hi : isActive (s.ils.get i)) : ¬autoEligible s d := fun ⟨_, ⟨_, hnone⟩, _⟩ => hnone i hd.2 hi

/-- An activation in SETUP or RUN: the members trip and take their safe patterns (R82, R107). -/
theorem State.activate_quiet {s : State} {i : IlId} (hm : s.ctl.mode = .setup ∨ s.ctl.mode = .run) :
    let w := s.activate i
    w = { s.tripMembers i with outs := w.outs }
    ∧ ∀ d, (¬isMember s i d → w.outs.get d = s.outs.get d)
      ∧ (isMember s i d → w.driveState d = .tripped ∧ Shows w d (s.outs.get d) (w.outs.get d)) := by
  intro w
  have hw : w = (s.tripMembers i).settleOn (s.member i) := by
    show State.activate i s = _
    unfold State.activate
    rcases hm with hm | hm <;> rw [hm]
  refine ⟨by rw [hw]; rfl, fun d => ⟨fun hd => ?_, fun hd => ?_⟩⟩
  · have hno : s.member i d = false := by rwa [← Bool.not_eq_true, State.member_iff]
    rw [hw]
    simp [State.settleOn, hno]
  · have hyes := (s.member_iff i d).2 hd
    rw [hw]
    refine ⟨State.driveState_of_latched (by simpa [State.settleOn] using hm) (by simpa [State.settleOn] using hd.1) ?_, ?_⟩
    · show ((s.tripMembers i).trips.get d).latch = true
      rw [State.tripMembers_trips, hyes]
      rfl
    · have h := State.settleOn_shows (s.member i) (s.tripMembers i) d hyes
      rwa [State.tripMembers_outs] at h

theorem State.readSample_ctl {v : Levels} {s : State} (h : s.ctl.mode ≠ .starting) : (s.readSample v).ctl = s.ctl :=
  if_neg fun ⟨hm, _⟩ => h hm

theorem State.activate_starting {s : State} {i : IlId} (hm : s.ctl.mode = .starting) : s.activate i = s := by
  rw [State.activate, hm]

theorem State.activate_check {s : State} {i : IlId} (hm : s.ctl.mode = .check) :
    s.activate i = (s.tripMembers i).leaveCheck .aborted (.interlock i) := by
  rw [State.activate, hm] <;> rfl

/-- A channel that a check leaves latched is TRIPPED (R16, R64). -/
theorem State.leaveCheck_tripped {status : CheckStatus} {reason : AbortReason} {s : State} {c : ChanId}
    (hu : (s.chans.get c).mode ≠ .unused) (hl : (s.trips.get c).latch = true) (hn : ¬autoEligible s c) :
    let w := s.leaveCheck status reason
    w.driveState c = .tripped ∧ w.chans.get c = s.chans.get c ∧ w.trips.get c = s.trips.get c := by
  intro w
  have heq := s.leaveCheck_eq status reason
  have hchan : w.chans.get c = s.chans.get c := by
    show (s.leaveCheck status reason).chans.get c = _
    rw [heq, Bank.get_mapId, if_neg hn]
  have htrip : w.trips.get c = s.trips.get c := by
    show (s.leaveCheck status reason).trips.get c = _
    rw [heq, Bank.get_mapId, if_neg hn]
  have hmode : w.ctl.mode = .setup := by
    show (s.leaveCheck status reason).ctl.mode = _
    rw [heq]
  exact ⟨State.driveState_of_latched (Or.inl hmode) (hchan ▸ hu) (htrip ▸ hl), hchan, htrip⟩

/-- A member after an activation of its interlock: TRIPPED, its record and, but for the pins, its outputs kept (R82,
R107, R113). -/
theorem State.activate_member {s : State} {i : IlId} {d : ChanId} (hm : s.ctl.mode ≠ .starting) (hd : isMember s i d)
    (hi : isActive (s.ils.get i)) :
    let w := s.activate i
    w.driveState d = .tripped ∧ w.chans.get d = s.chans.get d
    ∧ w.trips.get d = { latch := true, cause := (s.trips.get d).cause ||| (1#4 <<< i.val) }
    ∧ Shows w d (s.outs.get d) (w.outs.get d) := by
  intro w
  have htrip : (s.tripMembers i).trips.get d = { latch := true, cause := (s.trips.get d).cause ||| (1#4 <<< i.val) } := by
    rw [State.tripMembers_trips, (s.member_iff i d).2 hd]
    rfl
  have hquiet : s.ctl.mode = .setup ∨ s.ctl.mode = .run → w.driveState d = .tripped ∧ w.chans.get d = s.chans.get d
      ∧ w.trips.get d = { latch := true, cause := (s.trips.get d).cause ||| (1#4 <<< i.val) }
      ∧ Shows w d (s.outs.get d) (w.outs.get d) := fun hq => by
    obtain ⟨heq, hpins⟩ := State.activate_quiet (i := i) hq
    obtain ⟨hdrive, hshow⟩ := (hpins d).2 hd
    refine ⟨hdrive, ?_, ?_, hshow⟩
    · show (State.activate i s).chans.get d = _
      rw [heq, State.tripMembers_chans]
    · show (State.activate i s).trips.get d = _
      rw [heq, htrip]
  cases hmode : s.ctl.mode with
  | starting => exact absurd hmode hm
  | setup => exact hquiet (Or.inl hmode)
  | run => exact hquiet (Or.inr hmode)
  | check =>
    have hd' : isMember (s.tripMembers i) i d := by rwa [isMember, State.tripMembers_chans]
    have hno : ¬autoEligible (s.tripMembers i) d :=
      not_autoEligible_of_active hd' (by rwa [State.tripMembers_ils])
    have hw : w = (s.tripMembers i).leaveCheck .aborted (.interlock i) := State.activate_check hmode
    obtain ⟨hdrive, hchan, htr⟩ := State.leaveCheck_tripped (status := .aborted) (reason := .interlock i) hd'.1
      (by rw [htrip]) hno
    have hshow := (s.tripMembers i).leaveCheck_shows .aborted (.interlock i) d
    rw [State.rearmedOut, if_neg hno, State.tripMembers_outs] at hshow
    rw [hw]
    exact ⟨hdrive, hchan.trans (by rw [State.tripMembers_chans]), htr.trans htrip, hshow⟩

/-- Settles O8, mode by mode: the trips by `State.tripMembers_eq`, the pins by `Shows.safePattern`. -/
theorem activationTripsMembers : Obligations.ActivationTripsMembers := by
  intro ss il home c s i l r y x m es k h hr hx hact hm hes hk hy
  obtain ⟨v, hv⟩ : ∃ v : State, v = { r with ils := r.ils.set i x } := ⟨_, rfl⟩
  have hw : State.sample { s := ss, il := il, home := home, c := c } s = v.activate i := by
    rw [State.sample_of_interlock h hx, if_pos ((Interlock.active_iff x).2 hact), hv, hr]
  have hmode : v.ctl.mode = s.ctl.mode := by
    rw [hv, hr]
    exact State.readSample_mode (v := { s := ss, il := il, home := home, c := c })
  have hchans : v.chans = s.chans := by rw [hv, hr]; rfl
  have houts : v.outs = s.outs := by rw [hv, hr]; rfl
  have htrips : v.trips = s.trips := by rw [hv, hr]; rfl
  have hil : isActive (v.ils.get i) := by
    rw [hv]
    exact (Bank.get_set_self r.ils i x).symm ▸ hact
  have htrip : v.tripMembers i = { y with link := k } := by
    rw [State.tripMembers_eq (s := v) (m := m) (es := es) (by rw [hv, hr]; exact hm) (by rw [hv, hr]; exact hes), hy, hk,
      hv, hr]
    rfl
  have hmem : ∀ d, isMember v i d ↔ isMember s i d := fun d => by rw [isMember, hchans]
  have hb := State.kick_became (v.activate i)
  have hout := State.kick_outs (v.activate i)
  refine ⟨_, exec_sample ss il home c s, ?_⟩
  rw [hw]
  refine ⟨fun hst => ?_, fun hq => ?_, fun hne d hd => ?_, fun hc => ?_⟩
  · rw [State.activate_starting (hmode.trans hst)] at hb ⊢
    rwa [← hv]
  · obtain ⟨heq, hpins⟩ := State.activate_quiet (s := v) (i := i) (by rwa [hmode])
    refine ⟨?_, fun d hd => ?_⟩
    · rw [hout]
      rw [htrip] at heq
      generalize (v.activate i).kick = t at hb ⊢
      generalize v.activate i = w at hb heq ⊢
      rw [heq] at hb
      exact hb
    · rw [hout, (hpins d).1 ((hmem d).not.2 hd), ← houts]
  · obtain ⟨hdrive, hchan, -, hshow⟩ := State.activate_member (by rwa [hmode]) ((hmem d).2 hd) hil
    obtain ⟨hA, hrest⟩ := hshow.safePattern hdrive
    rw [hchan, hchans, houts] at hrest
    rw [hout]
    exact ⟨(State.driveState_linkFree hb.1 d).trans hdrive, hA, hrest⟩
  · have hctl : v.ctl = s.ctl := by
      rw [hv, hr]
      exact State.readSample_ctl (v := { s := ss, il := il, home := home, c := c }) fun e => by
        rw [e] at hc
        cases hc
    obtain ⟨hbec, hshow⟩ := State.left_became .aborted (.interlock i) (v.tripMembers i)
    have hyv : y = { v with trips := y.trips, queue := y.queue } := by rw [hy, hv]
    have hyctl : y.ctl = s.ctl := by rw [hyv]; exact hctl
    have hychans : y.chans = s.chans := by rw [hyv]; exact hchans
    have hytb : y.tb = s.tb := by rw [hyv, hv, hr]; rfl
    have hycheck : y.check = s.check := by rw [hyv, hv, hr]; rfl
    have hw' := State.activate_check (i := i) (hmode.trans hc)
    rw [← hw'] at hbec hshow
    refine ⟨?_, fun d hd => ?_, fun d => ⟨?_, fun hu hl => ?_⟩⟩
    · rw [htrip] at hbec
      rw [← hyctl, ← hychans, ← hytb, ← hycheck]
      exact hbec
    · obtain ⟨-, -, htr, -⟩ := State.activate_member (by rw [hmode, hc]; exact OpMode.noConfusion) ((hmem d).2 hd) hil
      rw [State.kick_trips, htr, htrips]
    · have h := hshow d
      rw [htrip] at h
      exact h
    · have hidle : (v.activate i).driveState d = .idle := by
        rw [State.kick_trips, hw'] at hl
        rw [hw']
        exact State.leaveCheck_idle (by rwa [State.tripMembers_chans, hchans]) hl
      have hne : (v.activate i).ctl.mode ≠ .starting := by
        rw [hw', State.leaveCheck_eq]
        exact OpMode.noConfusion
      have hd := (State.driveState_linkFree hb.1 d).trans hidle
      exact ⟨hd, (hshow d).inactive_of_quiet (by rwa [State.kick_ctl]) (Or.inr (Or.inl hd))⟩

end Sys2Proof.Machine
end

section
/-! SUPPORT. What waits at the link: the request buffer and the transmitter's choice of the next frame. -/

namespace Sys2Proof.Machine

/-! ### Requests that arrive (R181) -/

/-- A decoder whose place is taken, or that has taken RESTART, takes no request (R176, R181). -/
theorem State.serve_of_busy {s : State} (h : s.link.service ≠ none ∨ s.link.restarting = true) : s.serve = s := by
  unfold State.serve
  split
  · next hs hr _ =>
    rcases h with h | h
    · exact absurd hs h
    · rw [hr] at h
      cases h
  · rfl

theorem State.serve_of_free {s : State} {w : Frame} {ws : List Frame} (hs : s.link.service = none)
    (hr : s.link.restarting = false) (hw : s.link.waiting = w :: ws) :
    s.serve = State.answer w { s with link := { s.link with waiting := ws } } := by
  rw [State.serve, hs, hr, hw]

theorem State.serve_of_nothing {s : State} (hw : s.link.waiting = []) : s.serve = s := by
  unfold State.serve
  split
  · next h => rw [hw] at h; cases h
  · rfl

theorem Link.accept_service (l : Link) (f : Frame) :
    (l.accept f).service = l.service ∧ (l.accept f).restarting = l.restarting := by
  unfold Link.accept
  split <;> exact ⟨rfl, rfl⟩

theorem Link.accept_of_room {l : Link} {f : Frame} (h : l.waiting.length < 4) :
    l.accept f = { l with waiting := l.waiting ++ [f] } := if_pos h

theorem Link.accept_of_full {l : Link} {f : Frame} (h : 4 ≤ l.waiting.length) :
    l.accept f = { l with overruns := min (l.overruns + 1) 65535, overrun := true } := if_neg (Nat.not_lt.2 h)

/-- A request that arrives at a busy decoder waits, or is lost where four do (R181). -/
theorem State.arrive_of_busy {s : State} (f : Frame) (h : s.link.service ≠ none ∨ s.link.restarting = true) :
    s.arrive f = State.kick { s with link := s.link.accept f } := by
  obtain ⟨hs, hr⟩ := s.link.accept_service f
  rw [State.arrive, State.serve_of_busy (by rwa [hs, hr])]

theorem State.deliver_of_starting {s : State} (kind tag : Byte) (body : List Byte) (h : s.ctl.mode = .starting) :
    s.deliver kind tag body = s := if_pos h

theorem State.deliver_of_running {s : State} (kind tag : Byte) (body : List Byte) (h : s.ctl.mode ≠ .starting) :
    s.deliver kind tag body = s.arrive { kind := kind, tag := tag, body := body } := if_neg h

/-- RESTART stays taken while its reply is built or waits. -/
theorem Served.restarting {req : Frame} {r : Result} {fields : List Byte} {l : Link} {t : State}
    (h : Served req r fields l t) : t.link.restarting = l.restarting := by
  unfold Served at h
  dsimp only at h
  split at h
  · rcases h with h | ⟨-, h⟩ <;> rw [h]
  · rw [h]
  · rcases h with h | h | ⟨-, h⟩ <;> rw [h]

/-- Settles O26. -/
theorem requestsWaitOrAreLost : Obligations.RequestsWaitOrAreLost := by
  refine ⟨fun c f s hc => ?_, fun tag s hr => ?_⟩
  · rw [exec_eq_deliver c f s hc]
    refine ⟨fun hm => by rw [State.deliver_of_starting _ _ _ hm], fun hm hbusy => ⟨_, rfl, fun hlt => ?_, fun hle => ?_⟩⟩
    all_goals rw [State.deliver_of_running _ _ _ hm, State.arrive_of_busy _ hbusy]
    · rw [Link.accept_of_room hlt]
      exact State.kick_became _
    · rw [Link.accept_of_full hle]
      exact State.kick_became _
  · obtain ⟨t, he, ht⟩ := exec_take (k := .restart) rfl hr rfl ⟨rfl, inModes_all (State.ready_mode hr), rfl, rfl⟩
      (c := .restart tag [])
    have hta : Taken (.restart tag []) .ok [] { s with link := { s.link with restarting := true } } t := ht
    obtain ⟨_, _, _, hserved⟩ := id hta
    have hre : t.link.restarting = true := hserved.restarting
    exact ⟨t, he, hta, hre, by simp [State.ready, hre]⟩

/-! ### A request in service -/

/-- The request `w` is in service, with a reply of its own tag where one is built, and `ws` wait behind it. -/
def Link.Serves (l : Link) (w : Frame) (ws : List Frame) : Prop :=
  ∃ v, l.service = some v ∧ v.request = w ∧ (∀ r, v.reply = some r → r.tag = w.tag) ∧ l.waiting = ws

theorem Link.Serves.congr {l m : Link} {w : Frame} {ws : List Frame} (h : l.Serves w ws) (hs : m.service = l.service)
    (hw : m.waiting = l.waiting) : m.Serves w ws := by
  unfold Link.Serves
  rw [hs, hw]
  exact h

theorem Link.Serves.builtWith {l : Link} {w : Frame} {ws : List Frame} (h : l.Serves w ws) (b : Byte) :
    (l.builtWith b).Serves w ws := by
  obtain ⟨⟨req, result, fields, reply⟩, hv, hreq, htag, hwait⟩ := h
  have hwait' : (l.builtWith b).waiting = ws := by rw [Link.builtWith_eq, hwait]
  cases reply with
  | none =>
    have hbuilt : (l.builtWith b).service = some ⟨req, result, fields, some (replyTo req result b fields)⟩ := by
      rw [Link.builtWith, hv]
    have hsame : req.tag = w.tag := congrArg Frame.tag hreq
    refine ⟨_, hbuilt, hreq, ?_, hwait'⟩
    rintro r hr
    cases hr
    exact hsame
  | some r => exact ⟨_, by rw [Link.builtWith_of_built l b (by rw [Link.unbuilt, hv]; rfl), hv], hreq, htag, hwait'⟩

/-- The transmitter, whatever it begins, leaves the request in service. -/
theorem NoticeBegun.serves {l : Link} {t : State} {w : Frame} {ws : List Frame} (h : NoticeBegun l t)
    (hl : l.Serves w ws) : t.link.Serves w ws := by
  have hb := hl.builtWith (State.statusByte { t with link := l })
  unfold NoticeBegun at h
  dsimp only at h
  rcases h with ⟨-, h | h⟩ | ⟨-, ⟨-, -, h⟩ | ⟨_, _, -, h | h⟩ | ⟨_, _, -, -, h⟩⟩ <;> rw [h]
  · exact hl
  · exact hb
  · exact hl
  · exact hl.congr rfl rfl
  · exact hb.congr rfl rfl
  · exact hb.congr rfl rfl

/-- A request that is taken is in service (R182, R183); the transmitter goes on as before. -/
theorem State.answer_serves (f : Frame) (s : State) : (s.answer f).link.Serves f s.link.waiting
    ∧ (s.answer f).link.tx = s.link.tx ∧ (s.answer f).link.lastFrame = s.link.lastFrame := by
  obtain ⟨hwait, -, -, htx, hlast⟩ : SameRequests s.link (s.judge f).state :=
    (unitsKeep_sameRequests s.link).requestsKeep.judge f s (.refl s)
  have hserves : ({ (s.judge f).state.link with
      service := some (Service.mk f (s.judge f).result.code (s.judge f).fields none) } : Link).Serves f s.link.waiting :=
    ⟨_, rfl, rfl, nofun, hwait⟩
  unfold State.answer
  dsimp only
  split
  · rw [State.build_link]
    exact ⟨hserves.builtWith _, by rw [Link.builtWith_eq, htx], by rw [Link.builtWith_eq, hlast]⟩
  · exact ⟨hserves, htx, hlast⟩

/-! ### The transmitter's choice (R191) -/

/-- The transmitter has ended a frame of a kind. -/
def State.freed (done : FrameClass) (s : State) : State :=
  { s with link := { s.link with lastFrame := done, tx := .idle } }

theorem State.freed_replyWaits (done : FrameClass) (s : State) :
    (s.freed done).link.replyWaits = s.link.service.isSome := by
  unfold Link.replyWaits State.freed
  dsimp only
  cases s.link.service <;> rfl

/-- The choice after a frame, by what waits (R191). -/
theorem State.choose_cases (done : FrameClass) (s : State) : s.choose done =
    (match s.link.service.isSome, s.link.notices with
    | false, [] => s.freed done
    | true, [] => (s.freed done).beginReply
    | false, _ :: _ => { s.freed done with link := (s.freed done).link.beginNotice }
    | true, _ :: _ => match done with
      | .reply => (s.freed done).noticeFirst
      | .notice => (s.freed done).beginReply) := by
  rw [← s.freed_replyWaits done]
  rfl

/-- Where no request is in service the oldest notice is begun, if there is one (R189). -/
theorem State.choose_of_unserved {s : State} (done : FrameClass) (h : s.link.service = none) :
    s.choose done = { s with link := match s.link.notices with
      | n :: ns => { s.link with lastFrame := done, tx := .sending n.frame .notice, notices := ns }
      | [] => { s.link with lastFrame := done, tx := .idle } } := by
  rw [State.choose_cases, h]
  cases hn : s.link.notices with
  | nil => rfl
  | cons n ns =>
    have hn' : (s.freed done).link.notices = n :: ns := hn
    dsimp only [Option.isSome_none]
    rw [Link.beginNotice, hn'] <;> rfl

/-- A reply that waits is begun where no notice does, and after every notice (R191). -/
theorem State.choose_of_served {s : State} {done : FrameClass} {v : Service} (h : s.link.service = some v)
    (hn : s.link.notices = [] ∨ done = .notice) : s.choose done = (s.freed done).beginReply := by
  rw [State.choose_cases, h]
  rcases hn with hn | rfl
  · rw [hn] <;> rfl
  · cases s.link.notices <;> rfl

/-- After a reply the oldest notice goes first (R191). -/
theorem State.choose_reply_of_notices {s : State} {v : Service} {n : Notice} {ns : List Notice}
    (h : s.link.service = some v) (hn : s.link.notices = n :: ns) : s.choose .reply = (s.freed .reply).noticeFirst := by
  rw [State.choose_cases, h, hn] <;> rfl

/-- A reply that is begun, with STATUS of then (R182, R191). -/
theorem State.beginReply_begun {s : State} {v : Service} (h : s.link.service = some v) :
    ∃ w r l, l = s.link.builtWith s.statusByte ∧ l.service = some w ∧ w.reply = some r
      ∧ s.beginReply = { s with link := { l with tx := .sending r .reply } } := by
  obtain ⟨w, r, hw, hr, hl⟩ := s.beginReply_link v h
  exact ⟨w, r, _, rfl, hw, hr, by rw [s.beginReply_eq, hl]⟩

/-- Building a reply reads neither the transmitter nor the last frame. -/
theorem State.freed_builtWith (done : FrameClass) (s : State) :
    (s.freed done).link.builtWith (s.freed done).statusByte =
      { s.link.builtWith s.statusByte with lastFrame := done, tx := .idle } := by
  have hb : (s.freed done).statusByte = s.statusByte := rfl
  rw [hb]
  unfold Link.builtWith State.freed
  dsimp only
  split <;> simp_all

/-! ### FRAME_SENT -/

theorem exec_frameSent_notice {s : State} {f : Frame} (h : s.link.tx = .sending f .notice) :
    exec .frameSent s = .next (s.choose .notice) := by
  show execFrameSent s = _
  rw [execFrameSent, h] <;> rfl

theorem exec_frameSent_reply {s : State} {f : Frame} (h : s.link.tx = .sending f .reply)
    (hr : s.link.restarting = false) : exec .frameSent s = .next s.replySent := by
  show execFrameSent s = _
  rw [execFrameSent, h]
  exact if_neg (by rw [hr]; exact Bool.false_ne_true)

/-- A request has left its place with its reply sent (R181). -/
def State.unserved (s : State) : State :=
  { s with link := { s.link with service := none, tx := .idle, lastFrame := .reply } }

/-- The transmitter's choice and the decoder's turn in either order (R191; log 8). -/
theorem State.replySent_of_both {s : State} {w : Frame} {ws : List Frame} {n : Notice} {ns : List Notice}
    (hw : s.link.waiting = w :: ws) (hn : s.link.notices = n :: ns) :
    s.replySent = (State.choose .reply { s.unserved with freeCount := s.freeCount + 1 }).serveThenKick
    ∨ s.replySent = (State.serve { s.unserved with freeCount := s.freeCount + 1 }).choose .reply := by
  have e : s.replySent = (match s.unserved.link.waiting, s.unserved.link.notices with
    | _ :: _, _ :: _ =>
      if (s.unserved.pick 2).1 = 0 then (State.choose .reply (s.unserved.pick 2).2).serveThenKick
      else (State.serve (s.unserved.pick 2).2).choose .reply
    | _, _ => (s.unserved.choose .reply).serveThenKick) := rfl
  have hw' : s.unserved.link.waiting = w :: ws := hw
  have hn' : s.unserved.link.notices = n :: ns := hn
  rw [e, hw', hn']
  dsimp only
  split
  · exact Or.inl rfl
  · exact Or.inr rfl

/-- Where only one of the two waits, the transmitter's choice comes first. -/
theorem State.replySent_of_one {s : State} (h : s.link.waiting = [] ∨ s.link.notices = []) :
    s.replySent = (s.unserved.choose .reply).serveThenKick := by
  have e : s.replySent = (match s.unserved.link.waiting, s.unserved.link.notices with
    | _ :: _, _ :: _ =>
      if (s.unserved.pick 2).1 = 0 then (State.choose .reply (s.unserved.pick 2).2).serveThenKick
      else (State.serve (s.unserved.pick 2).2).choose .reply
    | _, _ => (s.unserved.choose .reply).serveThenKick) := rfl
  rcases h with h | h
  · have h' : s.unserved.link.waiting = [] := h
    rw [e, h']
  · have h' : s.unserved.link.notices = [] := h
    rw [e, h']
    cases s.unserved.link.waiting <;> rfl

/-- A transmitter with nothing to begin and no reply to build goes on as it is. -/
theorem State.kick_of_unserved {s : State} (h : s.link.service = none) (hn : s.link.tx ≠ .idle ∨ s.link.notices = []) :
    s.kick = s := by
  have hbuild : s.mayBuild = s := if_neg (by rw [Link.unbuilt, h]; exact Bool.false_ne_true)
  have hw : s.link.replyWaits = false := by rw [Link.replyWaits, h]
  unfold State.kick
  split
  · exact hbuild
  · next htx =>
    rw [hw, hn.resolve_left fun hne => hne htx]

/-- What a sent reply leaves where no request waits (R189, R191). -/
theorem State.replySent_of_nothing {s : State} (h : s.link.waiting = []) : s.replySent = { s with link :=
    match s.link.notices with
    | n :: ns => { s.link with service := none, lastFrame := .reply, tx := .sending n.frame .notice, notices := ns }
    | [] => { s.link with service := none, lastFrame := .reply, tx := .idle } } := by
  rw [State.replySent_of_one (Or.inl h), State.choose_of_unserved .reply rfl, State.serveThenKick,
    State.serve_of_nothing (by dsimp only; split <;> exact h)]
  cases hn : s.link.notices with
  | nil =>
    have hn' : s.unserved.link.notices = [] := hn
    rw [hn']
    exact State.kick_of_unserved rfl (Or.inr hn)
  | cons n ns =>
    have hn' : s.unserved.link.notices = n :: ns := hn
    rw [hn']
    exact State.kick_of_unserved rfl (Or.inl Tx.noConfusion)

/-- Beside a sent reply the decoder takes the oldest waiting request, before the transmitter's choice or after it. -/
theorem State.replySent_of_waiting {s : State} {w : Frame} {ws : List Frame} (hr : s.link.restarting = false)
    (hw : s.link.waiting = w :: ws) :
    (s.link.notices = [] → s.replySent = State.kick (State.answer w { s with link :=
      { s.link with service := none, lastFrame := .reply, tx := .idle, waiting := ws } }))
    ∧ ∀ n ns free, s.link.notices = n :: ns → free = { s with
        freeCount := s.freeCount + 1
        link := { s.link with service := none, lastFrame := .reply, tx := .idle, waiting := ws } } →
      s.replySent = State.kick (State.answer w { free with link := { free.link with
        tx := .sending n.frame .notice, notices := ns } })
      ∨ s.replySent = (State.answer w free).choose .reply := by
  refine ⟨fun hn => ?_, ?_⟩
  · rw [State.replySent_of_one (Or.inr hn), State.choose_of_unserved .reply rfl, State.serveThenKick]
    have hn' : s.unserved.link.notices = [] := hn
    rw [hn', State.serve_of_free (w := w) (ws := ws)]
    · rfl
    · rfl
    · exact hr
    · exact hw
  · rintro n ns free hn rfl
    rcases State.replySent_of_both hw hn with e | e
    · refine Or.inl ?_
      have hn' : ({ s.unserved with freeCount := s.freeCount + 1 } : State).link.notices = n :: ns := hn
      rw [e, State.choose_of_unserved .reply rfl, State.serveThenKick, hn', State.serve_of_free (w := w) (ws := ws)]
      · rfl
      · rfl
      · exact hr
      · exact hw
    · refine Or.inr ?_
      rw [e, State.serve_of_free (w := w) (ws := ws)]
      · rfl
      · rfl
      · exact hr
      · exact hw

/-- The choice after a reply where the decoder has taken the next request: the oldest notice, else the new reply. -/
theorem State.choose_reply {a : State} {v : Service} (h : a.link.service = some v) (htx : a.link.tx = .idle)
    (hlast : a.link.lastFrame = .reply) :
    (∀ m ms, a.link.notices = m :: ms → ∃ k d, (d = a.link ∨ d = a.link.builtWith a.statusByte) ∧ a.choose .reply =
      { a with freeCount := k, link := { d with tx := .sending m.frame .notice, notices := ms } })
    ∧ (a.link.notices = [] → ∃ w r, (a.link.builtWith a.statusByte).service = some w ∧ w.reply = some r
      ∧ a.choose .reply = { a with link := { a.link.builtWith a.statusByte with tx := .sending r .reply } }) := by
  have hfreed : a.freed .reply = a := by rw [State.freed, ← htx, ← hlast]
  refine ⟨fun m ms hn => ?_, fun hn => ?_⟩
  · rw [State.choose_reply_of_notices h hn, hfreed]
    rcases State.noticeFirst_link a m ms hn with e | e
    · exact ⟨_, _, Or.inl rfl, by rw [a.noticeFirst_eq, e]⟩
    · exact ⟨_, _, Or.inr rfl, by rw [a.noticeFirst_eq, e]⟩
  · obtain ⟨w, r, l, rfl, hw, hr, heq⟩ := State.beginReply_begun h
    exact ⟨w, r, hw, hr, by rw [State.choose_of_served h (Or.inl hn), hfreed, heq]⟩

/-- That choice leaves the request in service. -/
theorem State.choose_reply_serves {a : State} {w : Frame} {ws : List Frame} (h : a.link.Serves w ws)
    (htx : a.link.tx = .idle) (hlast : a.link.lastFrame = .reply) : (a.choose .reply).link.Serves w ws := by
  obtain ⟨v, hv, -⟩ := id h
  obtain ⟨hnotice, hreply⟩ := State.choose_reply hv htx hlast
  have hb := h.builtWith a.statusByte
  cases hn : a.link.notices with
  | cons m ms =>
    obtain ⟨k, d, hd, e⟩ := hnotice m ms hn
    rw [e]
    rcases hd with rfl | rfl
    · exact h.congr rfl rfl
    · exact hb.congr rfl rfl
  | nil =>
    obtain ⟨_, _, -, -, e⟩ := hreply hn
    rw [e]
    exact hb.congr rfl rfl

/-- Settles O25, by what was sent and what waits. -/
theorem frameSentChoosesNext : Obligations.FrameSentChoosesNext := by
  intro s
  refine ⟨fun h => ?_, fun f h => ⟨fun v hv => ?_, fun hv => ?_⟩, fun f h hr => ⟨fun hw => ?_, fun w ws hw => ?_⟩⟩
  · show execFrameSent s = _
    rw [execFrameSent, h]
  · rw [exec_frameSent_notice h, State.choose_of_served hv (Or.inr rfl)]
    obtain ⟨w, r, l, hl, hserv, hrep, heq⟩ := State.beginReply_begun (s := s.freed .notice) hv
    rw [State.freed_builtWith] at hl
    subst hl
    exact ⟨w, r, _, rfl, hserv, hrep, by rw [heq]; rfl⟩
  · rw [exec_frameSent_notice h, State.choose_of_unserved .notice hv] <;> rfl
  · rw [exec_frameSent_reply h hr, State.replySent_of_nothing hw] <;> rfl
  · rw [exec_frameSent_reply h hr]
    obtain ⟨hnone, hboth⟩ := State.replySent_of_waiting hr hw
    refine ⟨fun hn => by rw [hnone hn], ?_, fun n ns free hn hfree => ?_⟩
    · suffices hs : s.replySent.link.Serves w ws by
        obtain ⟨v, hv, hreq, htag, hwait⟩ := hs
        exact ⟨_, v, rfl, hv, hreq, htag, hwait⟩
      have hkick : ∀ x : State, x.link.waiting = ws → ((State.answer w x).kick).link.Serves w ws := fun x hx =>
        (State.kick_became _).2.serves (hx ▸ (State.answer_serves w x).1)
      cases hn : s.link.notices with
      | nil =>
        rw [hnone hn]
        exact hkick _ rfl
      | cons n ns =>
        rcases hboth n ns _ hn rfl with e | e
        · rw [e]
          exact hkick _ rfl
        · rw [e]
          obtain ⟨hserv, htx, hlast⟩ := State.answer_serves w { s with
            freeCount := s.freeCount + 1
            link := { s.link with service := none, lastFrame := .reply, tx := .idle, waiting := ws } }
          exact State.choose_reply_serves hserv htx hlast
    · refine (hboth n ns free hn hfree).imp (fun e => by rw [e]) fun e => ?_
      obtain ⟨⟨v, hv, -⟩, htx, hlast⟩ := State.answer_serves w free
      obtain ⟨hnotice, hreply⟩ := State.choose_reply hv (htx.trans (by rw [hfree])) (hlast.trans (by rw [hfree]))
      refine ⟨_, _, rfl, rfl, ?_⟩
      rw [e]
      split
      · next m ms hm =>
        obtain ⟨k, d, hd, e⟩ := hnotice m ms hm
        exact ⟨k, d, hd, congrArg _ e⟩
      · next hm =>
        obtain ⟨v, r, hserv, hrep, e⟩ := hreply hm
        exact ⟨v, r, hserv, hrep, congrArg _ e⟩

end Sys2Proof.Machine
end

section
/-! SUPPORT. TICK: the drive clocks of one tick of the frame counter. -/

namespace Sys2Proof.Machine

/-! ### What a sample in RUN leaves -/

/-- The Timebase, the accumulators, the check and the mode stand as they did. -/
structure SameTiming (s t : State) : Prop where
  tb : t.tb = s.tb := by rfl
  accs : t.accs = s.accs := by rfl
  check : t.check = s.check := by rfl
  ctl : t.ctl = s.ctl := by rfl

theorem SameTiming.trans {s t u : State} (h : SameTiming s t) (g : SameTiming t u) : SameTiming s u :=
  ⟨g.tb.trans h.tb, g.accs.trans h.accs, g.check.trans h.check, g.ctl.trans h.ctl⟩

theorem State.kick_sameTiming (s : State) : SameTiming s s.kick := by
  rw [State.kick_eq]
  exact {}

theorem State.settle_sameTiming (s : State) : SameTiming s s.settle := {}

theorem State.takeIl_sameTiming {s : State} (i : IlId) (l : Level) (hm : s.ctl.mode = .run) :
    SameTiming s (s.takeIl i l) := by
  have hmove : SameTiming s (s.moveIl i l) := {}
  unfold State.takeIl
  dsimp only
  split
  · obtain ⟨heq, -⟩ := State.activate_quiet (s := s.moveIl i l) (i := i) (Or.inr hm)
    rw [heq]
    exact hmove.trans ⟨by simp, by simp, by simp, by simp⟩
  · have hrel : (s.moveIl i l).ilRelease = s.moveIl i l := by
      unfold State.ilRelease
      split
      · next h => cases h.symm.trans hm
      · rfl
    rw [hrel]
    exact hmove

theorem State.takePin_sameTiming {s : State} (e : PinEvent) (hm : s.ctl.mode = .run) : SameTiming s (s.takePin e) := by
  cases e with
  | edge c l =>
    refine ⟨State.takeEdge_tb c l s, State.takeEdge_accs c l s, ?_, State.takeEdge_ctl c l s⟩
    show (s.takeEdge c l).check = _
    rw [State.takeEdge_run hm, State.edgeInRun_check]
    rfl
  | interlock i l => exact State.takeIl_sameTiming i l hm
  | home l => exact ⟨State.takeHome_tb l s, State.takeHome_accs l s, State.takeHome_check l s, State.takeHome_ctl l s⟩

theorem State.takePins_sameTiming {s : State} (n : Nat) (es : List PinEvent) (hm : s.ctl.mode = .run) :
    SameTiming s (State.takePins n es s) := by
  induction n generalizing es s with
  | zero => exact {}
  | succ n ih =>
    cases es with
    | nil => exact {}
    | cons e es =>
      unfold State.takePins
      dsimp only
      have hpick : SameTiming s (s.pick (e :: es).length).2 := by
        rw [State.pick_snd]
        exact {}
      split
      · exact hpick
      · next e' _ =>
        have hpin := State.takePin_sameTiming e' (hpick.ctl ▸ hm)
        exact (hpick.trans hpin).trans (ih _ ((hpick.trans hpin).ctl ▸ hm))

theorem State.sampleEvent_sameTiming {s : State} (v : Levels) (hm : s.ctl.mode = .run) : SameTiming s (s.sampleEvent v) := by
  have hne : s.ctl.mode ≠ .starting := fun e => by cases hm.symm.trans e
  have hread : SameTiming s (s.readSample v) := { ctl := State.readSample_ctl hne }
  exact (hread.trans (State.takePins_sameTiming _ _ (hread.ctl ▸ hm))).trans (State.kick_sameTiming _)

/-- With no frame end due, what a drive clock of RUN makes due leaves the Timebase (R91, R99). -/
theorem State.takeDue_sameTiming {s : State} (hm : s.ctl.mode = .run) (hdue : s.tb.frameEndDue = false) :
    SameTiming s s.takeDue := by
  have hboth : s.takeBoth = s.takeSampleDue := by
    rw [State.takeBoth, hdue, State.takeFrameDue, hdue]
    rfl
  have hsample : SameTiming s s.takeSampleDue := by
    unfold State.takeSampleDue
    split
    · exact State.sampleEvent_sameTiming _ hm
    · exact {}
  have hstart : s.takeSampleDue.startingOver = false :=
    State.startingOver_eq_false fun e => by cases (hsample.ctl ▸ hm : s.takeSampleDue.ctl.mode = .run).symm.trans e
  have heq : s.takeDue = s.takeSampleDue.settle := by
    unfold State.takeDue
    dsimp only
    rw [hboth, State.endStartingEvent, hstart]
    rfl
  rw [heq]
  exact hsample.trans (State.settle_sameTiming _)

/-! ### The drive clocks below a tick -/

/-- A drive clock below the tick counts the divider on (R1). -/
theorem State.driveClock_tb {s : State} (hr : s.tb.run = .running) (hd : s.tb.divider < s.tb.active.prescale) :
    s.driveClock.tb = { s.tb with divider := s.tb.divider + 1 } := by
  obtain ⟨-, -, hbelow, -⟩ := s.driveClock_clocked
  exact hbelow hr hd

/-- The last drive clock of a tick (R1 to R3). -/
theorem State.driveClock_ticked {s : State} (hr : s.tb.run = .running) (hd : s.tb.active.prescale ≤ s.tb.divider) :
    Ticked s.tb s.driveClock.tb := by
  obtain ⟨-, -, -, htick⟩ := s.driveClock_clocked
  exact htick hr hd

/-- The state after `k` drive clocks of a tick in RUN: its timing, with the divider counted on. -/
theorem State.clocks_run (k : Nat) {s : State} (hm : s.ctl.mode = .run) (hr : s.tb.run = .running)
    (hdue : s.tb.frameEndDue = false) (hk : k ≤ s.tb.active.prescale - s.tb.divider) :
    (State.clocks k s).tb = { s.tb with divider := s.tb.divider + k }
    ∧ (State.clocks k s).accs = s.accs ∧ (State.clocks k s).check = s.check ∧ (State.clocks k s).ctl = s.ctl := by
  induction k generalizing s with
  | zero => exact ⟨rfl, rfl, rfl, rfl⟩
  | succ k ih =>
    have htb := State.driveClock_tb hr (by omega)
    have hdue' : s.driveClock.tb.frameEndDue = false := by rw [htb]; exact hdue
    obtain ⟨h1, h2, h3, h4⟩ := State.takeDue_sameTiming (s := s.driveClock) hm hdue'
    have htb' := h1.trans htb
    obtain ⟨g1, g2, g3, g4⟩ := ih (s := s.driveClock.takeDue) (by rw [h4]; exact hm) (by rw [htb']; exact hr)
      (by rw [htb']; exact hdue) (by rw [htb']; dsimp only; omega)
    refine ⟨?_, g2.trans h2, g3.trans h3, g4.trans h4⟩
    show (State.clocks k s.driveClock.takeDue).tb = _
    rw [g1, htb']
    simp only [Nat.add_assoc, Nat.add_comm 1]

/-- The state after `k` drive clocks without a frame end, a sample or STARTING: the divider and the sample clock counted
on, and the outputs. -/
theorem State.clocks_quiet (k : Nat) {s : State} (hm : s.ctl.mode ≠ .starting) (hr : s.tb.run = .running)
    (hdue : s.tb.frameEndDue = false) (hk : k ≤ s.tb.active.prescale - s.tb.divider) (hphase : s.sampler.phase + k < 16) :
    State.clocks k s = { s with
      tb := { s.tb with divider := s.tb.divider + k }
      sampler := { s.sampler with phase := s.sampler.phase + k }
      outs := (State.clocks k s).outs } := by
  induction k generalizing s with
  | zero => rfl
  | succ k ih =>
    have htb := State.driveClock_tb hr (by omega)
    have hphase' : s.driveClock.sampler = { s.sampler with phase := s.sampler.phase + 1 } := by
      show ({ s.sampler with phase := min (s.sampler.phase + 1) 16 } : Sampler) = _
      rw [Nat.min_eq_left (by omega)]
    have hclock : s.driveClock = { s with
        tb := { s.tb with divider := s.tb.divider + 1 }
        sampler := { s.sampler with phase := s.sampler.phase + 1 }
        outs := s.driveClock.outs } := by
      rw [← htb, ← hphase']
      rfl
    have htaken : s.driveClock.takeDue = s.driveClock.settle := by
      refine State.takeDue_of_quiet (by rw [htb]; exact hdue) (by rw [hphase']; dsimp only; omega) ?_
      exact State.startingOver_eq_false fun e => absurd e hm
    have heq : s.driveClock.takeDue = { s with
        tb := { s.tb with divider := s.tb.divider + 1 }
        sampler := { s.sampler with phase := s.sampler.phase + 1 }
        outs := s.driveClock.settle.outs } := by
      rw [htaken]
      generalize s.driveClock = u at hclock
      rw [show u.settle = { u with outs := u.settle.outs } from rfl]
      generalize u.settle.outs = o
      rw [hclock]
    have hnext := ih (s := s.driveClock.takeDue) (by rw [heq]; exact hm) (by rw [heq]; exact hr) (by rw [heq]; exact hdue)
      (by rw [heq]; dsimp only; omega) (by rw [heq]; dsimp only; omega)
    show State.clocks k s.driveClock.takeDue = { s with
      tb := { s.tb with divider := s.tb.divider + (k + 1) }
      sampler := { s.sampler with phase := s.sampler.phase + (k + 1) }
      outs := (State.clocks k s.driveClock.takeDue).outs }
    generalize s.driveClock.takeDue = w at heq hnext ⊢
    generalize State.clocks k w = c at hnext ⊢
    rw [heq] at hnext
    rw [hnext]
    simp only [Nat.add_assoc, Nat.add_comm 1]

/-! ### TICK -/

theorem exec_tick_stopped {s : State} (h : s.tb.run = .stopped) : exec .tick s = .next s := by
  show execTick s = _
  rw [execTick, h]

theorem exec_tick_running {s : State} (h : s.tb.run = .running) : exec .tick s = .next
    (State.clocks (s.takeDue.tb.active.prescale - s.takeDue.tb.divider) s.takeDue).driveClock := by
  show execTick s = _
  rw [execTick, h]

/-- The tick of a part in RUN, whatever is sampled in it (R1 to R3). -/
theorem State.tick_run {s : State} (hm : s.ctl.mode = .run) (hr : s.tb.run = .running) (hdue : s.tb.frameEndDue = false) :
    ∃ t, exec .tick s = .next t ∧ Ticked s.tb t.tb ∧ t.accs = s.accs ∧ t.check = s.check ∧ t.ctl = s.ctl := by
  obtain ⟨htb, haccs, hcheck, hctl⟩ := State.takeDue_sameTiming hm hdue
  have htick := exec_tick_running hr
  rw [htb] at htick
  obtain ⟨gtb, gaccs, gcheck, gctl⟩ := State.clocks_run (s.tb.active.prescale - s.tb.divider) (s := s.takeDue)
    (by rw [hctl]; exact hm) (by rw [htb]; exact hr) (by rw [htb]; exact hdue) (by rw [htb])
  rw [htb] at gtb
  refine ⟨_, htick, ?_, gaccs.trans haccs, gcheck.trans hcheck, gctl.trans hctl⟩
  have hlast := State.driveClock_ticked (s := State.clocks (s.tb.active.prescale - s.tb.divider) s.takeDue)
    (by rw [gtb]; exact hr) (by rw [gtb]; dsimp only; omega)
  rw [gtb] at hlast
  exact hlast

/-- The tick of a part with no sample in it (R1 to R3). -/
theorem State.tick_quiet {s : State} (hm : s.ctl.mode ≠ .starting) (hr : s.tb.run = .running)
    (hdue : s.tb.frameEndDue = false) (hphase : s.sampler.phase + (s.tb.active.prescale - s.tb.divider) < 16) :
    ∃ t, exec .tick s = .next t ∧ Ticked s.tb t.tb
      ∧ t = { s with tb := t.tb, outs := t.outs, sampler :=
        { s.sampler with phase := s.sampler.phase + (s.tb.active.prescale - s.tb.divider) + 1 } } := by
  have htaken : s.takeDue = s.settle :=
    State.takeDue_of_quiet hdue (by omega) (State.startingOver_eq_false fun e => absurd e hm)
  have hclocks := State.clocks_quiet (s.tb.active.prescale - s.tb.divider) (s := s.settle) hm hr hdue le_rfl hphase
  have htick : exec .tick s = .next (State.clocks (s.tb.active.prescale - s.tb.divider) s.settle).driveClock := by
    rw [exec_tick_running hr, htaken]
    rfl
  generalize hn : s.tb.active.prescale - s.tb.divider = n at hclocks htick hphase ⊢
  generalize State.clocks n s.settle = c at hclocks htick
  have hrun : c.tb.run = .running := by rw [hclocks]; exact hr
  have hlast : c.tb.active.prescale ≤ c.tb.divider := by
    rw [hclocks]
    show s.tb.active.prescale ≤ s.tb.divider + n
    omega
  have hticked := State.driveClock_ticked hrun hlast
  have htb : c.tb = { s.tb with divider := s.tb.divider + n } := by rw [hclocks]; rfl
  have hphase' : min (c.sampler.phase + 1) 16 = s.sampler.phase + n + 1 := by
    rw [hclocks]
    exact Nat.min_eq_left hphase
  rw [htb] at hticked
  refine ⟨_, htick, hticked, ?_⟩
  have hframe : c.driveClock = { c with
      tb := c.driveClock.tb
      outs := c.driveClock.outs
      sampler := { c.sampler with phase := min (c.sampler.phase + 1) 16 } } := rfl
  rw [hphase'] at hframe
  generalize c.driveClock = t at hframe ⊢
  rw [hclocks] at hframe
  exact hframe

/-- Settles O23. -/
theorem tickCountsTheFrame : Obligations.TickCountsTheFrame := by
  refine fun s => ⟨exec_tick_stopped, fun hr => ?_, fun hr hdue hmode => ?_⟩
  · exact ⟨_, _, _, exec_tick_running hr, State.takeDue_dueTaken s, State.clocks_clocks _ _, State.driveClock_clocked _⟩
  · by_cases hphase : s.sampler.phase + (s.tb.active.prescale - s.tb.divider) < 16
    · have hm : s.ctl.mode ≠ .starting := fun e => by
        rcases hmode with h | ⟨h, -⟩ <;> cases e.symm.trans h
      obtain ⟨t, he, hticked, heq⟩ := State.tick_quiet hm hr hdue hphase
      exact ⟨t, he, hticked, by rw [heq], by rw [heq], by rw [heq], fun _ => heq⟩
    · have hm : s.ctl.mode = .run := hmode.resolve_right fun h => hphase h.2
      obtain ⟨t, he, hticked, haccs, hcheck, hctl⟩ := State.tick_run hm hr hdue
      exact ⟨t, he, hticked, haccs, hcheck, hctl, fun h => absurd h hphase⟩

end Sys2Proof.Machine
end

section
/-! SUPPORT. The LAYOUT body: its faults in their order, and its records read back. -/

namespace Sys2Proof.Machine

/-! ### Code tables -/

theorem SenseRole.coded : Coded SenseRole.ofCode SenseRole.code 2 := .two rfl rfl rfl (fun _ => rfl) rfl rfl rfl
theorem Polarity.ilCoded : Coded Polarity.ofIlCode Polarity.ilCode 1 := .one rfl rfl (fun _ => rfl) rfl rfl
theorem Rearm.coded : Coded Rearm.ofCode Rearm.code 1 := .one rfl rfl (fun _ => rfl) rfl rfl

theorem ChanMode.code_ofCode (x : BitVec 2) : (ChanMode.ofCode x.toNat).code = x.toNat := by
  revert x
  decide

theorem ChanMode.ofCode_eq_unused (x : BitVec 2) : ChanMode.ofCode x.toNat = .unused ↔ x = 0 := by
  revert x
  decide

theorem ChanMode.ofCode_eq_single (x : BitVec 2) : ChanMode.ofCode x.toNat = .single ↔ x = 1 := by
  revert x
  decide

theorem SenseRole.ofCode_eq_none (x : BitVec 2) : SenseRole.ofCode x.toNat = Option.none ↔ x = 3 := by
  revert x
  decide

theorem SenseRole.eq_of_ofCode {x : BitVec 2} {r : SenseRole} (h : SenseRole.ofCode x.toNat = some r) :
    r = (if x = 0 then .none else if x = 1 then .capture else .endStop) ∧ (r = .none ↔ x = 0) := by
  revert x
  cases r <;> decide

/-! ### Records -/

/-- The tests of a channel record (R45, R198). -/
theorem chanLayoutAt_eq_none (body : List Byte) (c : ChanId) : chanLayoutAt body c = none ↔ layoutFails body c.val := by
  rw [layoutFails, if_pos c.isLt]
  dsimp only
  generalize hb : byteAt body (2 * c.val) = b
  generalize hd : (byteAt body (2 * c.val + 1)).toNat = d
  have hmode : ChanMode.ofCode (b.extractLsb' 0 2).toNat = .unused ∨ ChanMode.ofCode (b.extractLsb' 0 2).toNat = .single
      ↔ (b.extractLsb' 0 2).toNat < 2 := by
    rw [ChanMode.ofCode_eq_unused, ChanMode.ofCode_eq_single]
    generalize b.extractLsb' 0 2 = x
    revert x
    decide
  unfold chanLayoutAt
  dsimp only
  rw [hb, hd]
  cases hr : SenseRole.ofCode (b.extractLsb' 6 2).toNat with
  | none => simp [(SenseRole.ofCode_eq_none _).1 hr]
  | some role =>
    obtain ⟨-, hrole⟩ := SenseRole.eq_of_ofCode hr
    have h3 : b.extractLsb' 6 2 ≠ 3 := fun e => by
      rw [(SenseRole.ofCode_eq_none _).2 e] at hr
      cases hr
    dsimp only
    by_cases h1 : 250 < d
    · simp [h1]
    rw [if_neg h1]
    by_cases h2 : d ≠ 0 ∧ (b.extractLsb' 0 2).toNat < 2
    · rw [if_pos (by rwa [hmode])]
      exact ⟨fun _ => Or.inr (Or.inr (Or.inl h2)), fun _ => rfl⟩
    rw [if_neg (by rwa [hmode])]
    by_cases h4 : b.extractLsb' 0 2 = 0 ∧ (b.extractLsb' 2 4 ≠ 0 ∨ b.extractLsb' 6 2 ≠ 0)
    · rw [if_pos (by rwa [ChanMode.ofCode_eq_unused, hrole.ne])]
      exact ⟨fun _ => Or.inr (Or.inr (Or.inr h4)), fun _ => rfl⟩
    · rw [if_neg (by rwa [ChanMode.ofCode_eq_unused, hrole.ne])]
      refine ⟨nofun, ?_⟩
      rintro (h | h | h | h)
      · exact absurd h h3
      · exact absurd h h1
      · exact absurd h h2
      · exact absurd h h4

/-- A channel record that passes its tests (R45, R198). -/
theorem chanLayoutAt_eq_some {body : List Byte} {c : ChanId} {l : ChanLayout} (h : chanLayoutAt body c = some l) :
    l.mode = ChanMode.ofCode ((byteAt body (2 * c.val)).extractLsb' 0 2).toNat
    ∧ l.deadTime = 4 * (byteAt body (2 * c.val + 1)).toNat
    ∧ l.member = (byteAt body (2 * c.val)).extractLsb' 2 4
    ∧ SenseRole.ofCode ((byteAt body (2 * c.val)).extractLsb' 6 2).toNat = some l.role := by
  unfold chanLayoutAt at h
  dsimp only at h
  cases hr : SenseRole.ofCode ((byteAt body (2 * c.val)).extractLsb' 6 2).toNat with
  | none =>
    rw [hr] at h
    cases h
  | some role =>
    rw [hr] at h
    dsimp only at h
    split at h
    · cases h
    split at h
    · cases h
    split at h
    · cases h
    cases h
    exact ⟨rfl, rfl, rfl, rfl⟩

/-- The tests of an interlock record (R104, R198). -/
theorem ilSettingsAt_eq_none (body : List Byte) (i : IlId) :
    ilSettingsAt body i = none ↔ layoutFails body (16 + i.val) := by
  have hi := i.isLt
  have hp := (Polarity.ilCoded (byteAt body (32 + 3 * i.val)).toNat).1
  have hr := (Rearm.coded (byteAt body (32 + 3 * i.val + 2)).toNat).1
  rw [layoutFails, if_neg (by omega), if_pos (by omega), show 16 + i.val - 16 = i.val by omega, ← hp, ← hr]
  unfold ilSettingsAt
  dsimp only [Nat.add_zero]
  cases Polarity.ofIlCode (byteAt body (32 + 3 * i.val)).toNat <;>
    cases Rearm.ofCode (byteAt body (32 + 3 * i.val + 2)).toNat <;> simp

theorem ilSettingsAt_eq_some {body : List Byte} {i : IlId} {g : IlSettings} (h : ilSettingsAt body i = some g) :
    Polarity.ofIlCode (byteAt body (32 + 3 * i.val)).toNat = some g.polarity
    ∧ g.filter = (byteAt body (32 + 3 * i.val + 1)).toNat
    ∧ Rearm.ofCode (byteAt body (32 + 3 * i.val + 2)).toNat = some g.rearm := by
  unfold ilSettingsAt at h
  dsimp only [Nat.add_zero] at h
  split at h
  · next hp hr =>
    split at h
    · cases h
    cases h
    exact ⟨hp, rfl, hr⟩
  · cases h

/-! ### The first fault -/

theorem layoutFails_home (body : List Byte) : layoutFails body 20 ↔ 15 < (byteAt body 44).toNat := by
  rw [layoutFails, if_neg (by omega), if_neg (by omega)]
  exact and_iff_right rfl

theorem not_layoutFails_above {body : List Byte} {n : Nat} (h : 20 < n) : ¬layoutFails body n := by
  rw [layoutFails, if_neg (by omega), if_neg (by omega)]
  rintro ⟨rfl, -⟩
  exact absurd h (by omega)

/-- The first of a bank's places that a test finds. -/
theorem find?_finRange_least {n : Nat} {p : Fin n → Bool} : LeastBy Fin.val (fun i => p i = true)
    ((List.finRange n).find? p) := by
  cases h : (List.finRange n).find? p with
  | none => exact fun i => (by simpa using List.find?_eq_none.1 h i (List.mem_finRange i))
  | some i =>
    obtain ⟨hi, as, bs, hsplit, has⟩ := List.find?_eq_some_iff_append.1 h
    refine ⟨hi, fun j hj => Nat.not_lt.1 fun hlt => ?_⟩
    have hmem : j ∈ as ++ i :: bs := hsplit ▸ List.mem_finRange j
    have hsorted : (as ++ i :: bs).Pairwise (· < ·) := hsplit ▸ List.pairwise_lt_finRange n
    rcases List.mem_append.1 hmem with hj' | hj'
    · simpa [hj] using has j hj'
    · rcases List.mem_cons.1 hj' with rfl | hj'
      · exact lt_irrefl _ hlt
      · exact absurd (List.rel_of_pairwise_cons (List.pairwise_append.1 hsorted).2.1 hj') (not_lt.2 hlt.le)

/-- The faults of a LAYOUT body in their order (R172). -/
theorem layoutFault_least (body : List Byte) : LeastBy id (layoutFails body) (layoutFault body) := by
  have hc := (find?_finRange_least (p := fun c : ChanId => (chanLayoutAt body c).isNone)).map (key' := id)
    (g := fun c : ChanId => c.val) fun _ _ h => h
  have hi := (find?_finRange_least (p := fun i : IlId => (ilSettingsAt body i).isNone)).map (key' := id)
    (g := fun i : IlId => 16 + i.val) fun _ _ h => Nat.add_le_add_left h 16
  have hh : LeastBy id (fun n => n = 20 ∧ layoutFails body 20)
      (if 15 < (byteAt body 44).toNat then some 20 else none) := by
    rw [layoutFails_home]
    split
    · next h => exact ⟨⟨rfl, h⟩, fun n hn => hn.1.ge⟩
    · next h => exact fun n hn => h hn.2
  have heq : layoutFault body = ((allChans.find? fun c => (chanLayoutAt body c).isNone).map (·.val)).or
      (((allIls.find? fun i => (ilSettingsAt body i).isNone).map (16 + ·.val)).or
        (if 15 < (byteAt body 44).toNat then some 20 else none)) := by
    unfold layoutFault
    cases allChans.find? fun c => (chanLayoutAt body c).isNone <;>
      cases allIls.find? fun i => (ilSettingsAt body i).isNone <;> rfl
  rw [heq]
  refine (hc.or (hi.or hh ?_) ?_).congr fun n => ?_
  · rintro _ _ ⟨i, -, rfl⟩ ⟨rfl, -⟩
    have := i.isLt
    show 16 + i.val ≤ 20
    omega
  · rintro _ _ ⟨c, -, rfl⟩ h
    have := c.isLt
    rcases h with ⟨i, -, rfl⟩ | ⟨rfl, -⟩ <;> simp only [id] <;> omega
  · constructor
    · rintro (⟨c, h, rfl⟩ | ⟨i, h, rfl⟩ | ⟨rfl, h⟩)
      · exact (chanLayoutAt_eq_none body c).1 (by simpa using h)
      · exact (ilSettingsAt_eq_none body i).1 (by simpa using h)
      · exact h
    · intro h
      by_cases h16 : n < 16
      · exact Or.inl ⟨⟨n, h16⟩, by simpa using (chanLayoutAt_eq_none body ⟨n, h16⟩).2 h, rfl⟩
      by_cases h20 : n < 20
      · obtain ⟨k, rfl⟩ := Nat.exists_eq_add_of_le (Nat.le_of_not_lt h16)
        have hk : k < 4 := by omega
        exact Or.inr (Or.inl ⟨⟨k, hk⟩, by simpa using (ilSettingsAt_eq_none body ⟨k, hk⟩).2 h, rfl⟩)
      · have : n = 20 := by
          by_contra hne
          exact not_layoutFails_above (by omega) h
        subst this
        exact Or.inr (Or.inr ⟨rfl, h⟩)

theorem layoutFault_eq_some {body : List Byte} {n : Nat} (h : layoutFails body n) (hfirst : ∀ m < n, ¬layoutFails body m) :
    layoutFault body = some n :=
  (layoutFault_least body).eq_some h (fun m hm => Nat.not_lt.1 fun hlt => hfirst m hlt hm) fun m _ e => e.symm

theorem layoutFault_eq_none {body : List Byte} (h : ∀ n, ¬layoutFails body n) : layoutFault body = none :=
  (layoutFault_least body).eq_none_iff.2 h

end Sys2Proof.Machine
end

section
/-! SUPPORT. What an accepted LAYOUT makes of channels and interlocks, and the layout bytes read back. -/

namespace Sys2Proof.Machine

theorem stoppedSet_freshSet (m : ChanMode) (g : ChanCfg) : stoppedSet (freshSet m g) = freshSet m g := rfl

/-- A channel after an accepted LAYOUT (R46). -/
theorem Channel.layOut_eq (ch : Channel) (l : ChanLayout) : ch.layOut l = { ch with
    mode := l.mode, deadTime := l.deadTime, member := l.member, role := l.role
    act := freshSet l.mode ch.cfg, clamped := false } := by
  rw [Channel.layOut, Channel.restart_eq]

/-- The state that the trips of a LAYOUT begin from: the new layout, its captures and UNUSED trips dropped (R172). -/
def State.layClears (body : List Byte) (s : State) : State :=
  ((s.layChannels body).layInterlocks body).clearCaptures.dropUnusedTrips

theorem State.layOut_eq (body : List Byte) (s : State) : s.layOut body = (State.loadCompare (fun _ => true)
    { (s.layClears body).tripActive.autoTest with
      ctl := { (s.layClears body).tripActive.autoTest.ctl with layoutOk := true, timebaseOk := false } }).settle := rfl

theorem State.layClears_chan {body : List Byte} {c : ChanId} {l : ChanLayout} (s : State)
    (h : chanLayoutAt body c = some l) : (s.layClears body).chans.get c = (s.chans.get c).layOut l := by
  show (s.layChannels body).chans.get c = _
  rw [State.layChannels, Bank.get_mapId, h]

theorem State.layClears_il {body : List Byte} {i : IlId} {g : IlSettings} (s : State)
    (h : ilSettingsAt body i = some g) : (s.layClears body).ils.get i = (s.ils.get i).configure g := by
  show (State.layInterlocks body (s.layChannels body)).ils.get i = _
  rw [State.layInterlocks, Bank.get_mapId, h] <;> rfl

/-- A channel with its new layout, whether or not its latch clears (R46, R113). -/
theorem State.layOut_chan {body : List Byte} {c : ChanId} {l : ChanLayout} (s : State)
    (h : chanLayoutAt body c = some l) : (s.layOut body).chans.get c = (s.chans.get c).layOut l := by
  have hc : (s.layClears body).tripActive.chans.get c = (s.chans.get c).layOut l := by
    rw [State.tripActive_chans, State.layClears_chan s h]
  rw [State.layOut_eq, State.settle_chans, State.loadCompare_chans]
  show (s.layClears body).tripActive.autoTest.chans.get c = _
  rw [(State.autoTest_chan _ c).1]
  split
  · rw [hc, Channel.layOut_eq]
    rfl
  · exact hc

theorem State.layOut_il {body : List Byte} {i : IlId} {g : IlSettings} (s : State) (h : ilSettingsAt body i = some g) :
    (s.layOut body).ils.get i = (s.ils.get i).configure g := by
  rw [State.layOut_eq, State.settle_ils, State.loadCompare_ils]
  show ((s.layClears body).tripActive).ils.get i = _
  rw [State.tripActive_ils, State.layClears_il s h]

theorem State.layOut_home (body : List Byte) (s : State) :
    (s.layOut body).home = { s.home with filter := (byteAt body 44).toNat } := by
  have hhome : (s.layClears body).tripActive.home = (s.layClears body).home :=
    State.tripActive_induction (P := fun t => t.home = (s.layClears body).home) _ rfl fun i t ht => by
      rw [State.tripMembers_home, ht]
  rw [State.layOut_eq, State.settle_home, State.loadCompare_home]
  show ((s.layClears body).tripActive).home = _
  rw [hhome]
  rfl

/-- A body without a fault has every record (R45, R104). -/
theorem chanLayoutAt_isSome {body : List Byte} (h : ∀ n, ¬layoutFails body n) (c : ChanId) :
    ∃ l, chanLayoutAt body c = some l :=
  Option.ne_none_iff_exists'.1 (mt (chanLayoutAt_eq_none body c).1 (h _))

theorem ilSettingsAt_isSome {body : List Byte} (h : ∀ n, ¬layoutFails body n) (i : IlId) :
    ∃ g, ilSettingsAt body i = some g :=
  Option.ne_none_iff_exists'.1 (mt (ilSettingsAt_eq_none body i).1 (h _))

/-- A LAYOUT that the decoder passes (R183). -/
theorem exec_layout {tag : Byte} {body : List Byte} {s : State} (hr : s.ready = true) (hm : s.ctl.mode = .setup)
    (hl : s.ctl.writeLockAll = false) (hlen : body.length = 45) : ∃ t, exec (.layout tag body) s = .next t
      ∧ Taken (.layout tag body) (s.takeLayout body).result (s.takeLayout body).fields (s.takeLayout body).state t := by
  have hlock : ReqKind.layout.locked s.ctl = false := hl
  have hmode : ReqKind.layout.modeOk s.ctl.mode = true := by rw [hm]; rfl
  exact exec_take (k := .layout) (f := { kind := 0x04, tag := tag, body := body }) rfl hr rfl
    ⟨decide_eq_true hlen, hmode, rfl, hlock⟩

theorem State.takeLayout_of_none {body : List Byte} {s : State} (h : layoutFault body = none) :
    s.takeLayout body = .ok (halfBytes (s.layOut body).tripMask) (s.layOut body) := by
  rw [State.takeLayout, h]

theorem State.takeLayout_of_some {body : List Byte} {s : State} {n : Nat} (h : layoutFault body = some n) :
    s.takeLayout body = .refuse .badArg [natByte n] s := by
  rw [State.takeLayout, h]

/-! ### The layout bytes -/

/-- A byte is its three fields of 2, 4 and 2 bits (R198). -/
theorem natByte_fields (b : Byte) : natByte ((b.extractLsb' 0 2).toNat + 4 * (b.extractLsb' 2 4).toNat
    + 64 * (b.extractLsb' 6 2).toNat) = b := by
  revert b
  decide +kernel

/-- A channel's record reads back as it was written (R198). -/
theorem Channel.layOut_bytes {body : List Byte} {c : ChanId} {l : ChanLayout} (ch : Channel)
    (h : chanLayoutAt body c = some l) :
    (ch.layOut l).layoutBytes = [byteAt body (2 * c.val), byteAt body (2 * c.val + 1)] := by
  obtain ⟨hmode, hdead, hmember, hrole⟩ := chanLayoutAt_eq_some h
  have hb : natByte (l.mode.code + 4 * l.member.toNat + 64 * l.role.code) = byteAt body (2 * c.val) := by
    rw [hmode, ChanMode.code_ofCode, hmember, (SenseRole.coded _).2 _ hrole]
    exact natByte_fields _
  have hd : natByte (l.deadTime / 4) = byteAt body (2 * c.val + 1) := by
    rw [hdead, Nat.mul_div_cancel_left _ (by decide)]
    exact natByte_toNat _
  rw [Channel.layOut_eq, Channel.layoutBytes, hb, hd]

/-- An interlock's record reads back as it was written (R198). -/
theorem Interlock.configure_bytes {body : List Byte} {i : IlId} {g : IlSettings} (x : Interlock)
    (h : ilSettingsAt body i = some g) : (x.configure g).layoutBytes =
      [byteAt body (32 + 3 * i.val), byteAt body (32 + 3 * i.val + 1), byteAt body (32 + 3 * i.val + 2)] := by
  obtain ⟨hp, hf, hr⟩ := ilSettingsAt_eq_some h
  rw [Interlock.layoutBytes, Interlock.configure, Polarity.ilCoded.natByte hp, Rearm.coded.natByte hr, hf, natByte_toNat]

/-- The layout bytes of a state with the layout of a body are that body (R173). -/
theorem State.layOut_layoutBytes {body : List Byte} (s : State) (hlen : body.length = 45)
    (h : ∀ n, ¬layoutFails body n) : (s.layOut body).layoutBytes = body := by
  have hchan : ∀ c, ((s.layOut body).chans.get c).layoutBytes = [byteAt body (2 * c.val), byteAt body (2 * c.val + 1)] :=
    fun c => by
      obtain ⟨l, hl⟩ := chanLayoutAt_isSome h c
      rw [State.layOut_chan s hl, Channel.layOut_bytes _ hl]
  have hil : ∀ i, ((s.layOut body).ils.get i).layoutBytes =
      [byteAt body (32 + 3 * i.val), byteAt body (32 + 3 * i.val + 1), byteAt body (32 + 3 * i.val + 2)] := fun i => by
    obtain ⟨g, hg⟩ := ilSettingsAt_isSome h i
    rw [State.layOut_il s hg, Interlock.configure_bytes _ hg]
  rw [State.layoutBytes, State.layOut_home]
  simp only [hchan, hil, natByte_toNat]
  rw [eq_map_byteAt hlen]
  generalize byteAt body = f
  rfl

theorem State.layoutBytes_linkFree {s t : State} (ht : t = { s with link := t.link, freeCount := t.freeCount }) :
    t.layoutBytes = s.layoutBytes := by
  have hchans : t.chans = s.chans := by rw [ht]
  have hils : t.ils = s.ils := by rw [ht]
  have hhome : t.home = s.home := by rw [ht]
  rw [State.layoutBytes, hchans, hils, hhome, ← State.layoutBytes]

/-! ### A frame byte by byte (R179, R180) -/

theorem sendBytes_append {bs cs : List Byte} {s t : State} (h : sendBytes bs s = .next t) :
    sendBytes (bs ++ cs) s = sendBytes cs t := by
  induction bs generalizing s with
  | nil =>
    cases h
    rfl
  | cons b bs ih =>
    have hb : exec (.byteReceived b) s = .next (s.receive b) := rfl
    rw [sendBytes, hb] at h
    rw [List.cons_append, sendBytes, hb]
    exact ih h

theorem sendBytes_cons {b : Byte} {bs : List Byte} {s t : State} (h : exec (.byteReceived b) s = .next t) :
    sendBytes (b :: bs) s = sendBytes bs t := by
  rw [sendBytes, h]

/-- A receiver that has a frame's LEN collects bytes while the frame is not whole (R180). -/
theorem sendBytes_collects {s : State} {len : Byte} {rest bs : List Byte} (hm : s.ctl.mode ≠ .starting)
    (hrx : s.link.rx = .inFrame (len :: rest)) (hlen : rest.length + 1 + bs.length < len.toNat + 5) :
    sendBytes bs s = .next { s with link := { s.link with rx := .inFrame (len :: rest ++ bs) } } := by
  induction bs generalizing s rest with
  | nil => rw [List.append_nil, ← hrx, sendBytes]
  | cons b bs ih =>
    rw [List.length_cons] at hlen
    obtain ⟨-, -, hframe⟩ := ((receiverTakesBytes.1 b s).2.1 hm)
    obtain ⟨hkeep, -⟩ := hframe len rest hrx
    rw [sendBytes_cons (hkeep (by omega))]
    refine (ih (rest := rest ++ [b]) (by exact hm) rfl ?_).trans ?_
    · rw [List.length_append, List.length_singleton]
      omega
    · rw [← List.cons_append, List.append_assoc]
      rfl

/-- A 16-bit value read back from its two bytes (R193). -/
theorem halfAt_append_halfBytes (l : List Byte) (h : Half) : halfAt (l ++ halfBytes h) l.length = h := by
  have h0 : byteAt (l ++ halfBytes h) l.length = h.extractLsb' 0 8 := by
    simp [byteAt, List.getD_eq_getElem?_getD, halfBytes]
  have h1 : byteAt (l ++ halfBytes h) (l.length + 1) = h.extractLsb' 8 8 := by
    simp [byteAt, List.getD_eq_getElem?_getD, halfBytes]
  rw [halfAt, h0, h1]
  refine BitVec.eq_of_getLsbD_eq fun i hi => ?_
  rw [BitVec.getLsbD_append]
  by_cases hlt : i < 8
  · simp [hlt]
  · simp [hlt, show i - 8 < 8 by omega, show 8 + (i - 8) = i by omega]

/-- A frame sent to a hunting receiver arrives (R180, R181). -/
theorem sendBytes_frame {s : State} (f : Frame) (hm : s.ctl.mode ≠ .starting) (hrx : s.link.rx = .hunting)
    (hlen : f.body.length ≤ 60) : sendBytes f.bytes s = .next (s.deliver f.kind f.tag f.body) := by
  have hnat : (natByte f.body.length).toNat = f.body.length := by
    rw [natByte, BitVec.toNat_ofNat, Nat.mod_eq_of_lt (by omega)]
  obtain ⟨lo, hi, hcrc⟩ : ∃ lo hi, halfBytes (crcOf f.covered) = [lo, hi] := ⟨_, _, rfl⟩
  generalize hL : natByte f.body.length = L at hnat
  have hcov : f.covered = L :: f.kind :: f.tag :: f.body := by
    rw [Frame.covered, hL]
    rfl
  have hbytes : f.bytes = 0xC3 :: L :: ((f.kind :: f.tag :: f.body ++ [lo]) ++ [hi]) := by
    rw [Frame.bytes, hcrc, hcov]
    simp [Config.sync]
  have hsync := ((receiverTakesBytes.1 0xC3 s).2.1 hm).1 hrx
  rw [if_pos rfl] at hsync
  have hopen := ((receiverTakesBytes.1 L { s with link := { s.link with rx := .inFrame [] } }).2.1 hm).2.1 rfl
  rw [if_neg (by omega)] at hopen
  have hbody := sendBytes_collects (s := { s with link := { s.link with rx := .inFrame [L] } }) (len := L) (rest := [])
    (bs := f.kind :: f.tag :: f.body ++ [lo]) hm rfl (by simp [hnat]; omega)
  have hlast := ((receiverTakesBytes.1 hi { s with link := { s.link with
    rx := .inFrame (L :: (f.kind :: f.tag :: f.body ++ [lo])) } }).2.1 hm).2.2 L _ rfl
  have htake : (L :: (f.kind :: f.tag :: f.body ++ [lo])).take (L.toNat + 3) = f.covered := by
    rw [hcov, hnat]
    simp
  have hhalf : halfAt (L :: (f.kind :: f.tag :: f.body ++ [lo]) ++ [hi]) (L.toNat + 3) = crcOf f.covered := by
    have e : L :: (f.kind :: f.tag :: f.body ++ [lo]) ++ [hi] = f.covered ++ halfBytes (crcOf f.covered) := by
      rw [hcrc, hcov]
      simp
    have hl : L.toNat + 3 = f.covered.length := by
      rw [hcov, hnat]
      rfl
    rw [e, hl, halfAt_append_halfBytes]
  have hwhole := (hlast.2 (by simp [hnat])).2 (by rw [htake, hhalf])
  have hs : ({ s with link := { s.link with rx := .hunting } } : State) = s := by rw [← hrx]
  have hdrop : ((f.kind :: f.tag :: f.body ++ [lo]).drop 2).take L.toNat = f.body := by
    rw [hnat]
    simp
  rw [hdrop] at hwhole
  rw [hbytes, sendBytes_cons hsync, sendBytes_cons hopen, sendBytes_append hbody]
  refine (sendBytes_cons (bs := []) hwhole).trans ?_
  exact congrArg (fun x : State => Host.Outcome.next (x.deliver f.kind f.tag f.body)) hs

/-- Settles O52. -/
theorem requestAndLayoutReadBack : Obligations.RequestAndLayoutReadBack := by
  refine ⟨fun c f s hc hlen hm hrx => ?_, fun tag body s t hr hm hl hlen hfaults he => ?_⟩
  · rw [sendBytes_frame f hm hrx hlen, exec_eq_deliver c f s hc]
  · obtain ⟨u, hu, htaken⟩ := exec_layout (tag := tag) hr hm hl hlen
    cases hu.symm.trans he
    have hlink := (htaken.of_answer (State.takeLayout_of_none (layoutFault_eq_none hfaults))).linkFree
    rw [State.layoutBytes_linkFree hlink, State.layOut_layoutBytes s hlen hfaults]

end Sys2Proof.Machine
end

section
/-! SUPPORT. The trips, the outputs and the notices of an accepted LAYOUT. -/

namespace Sys2Proof.Machine

/-! ### The trips of several interlocks -/

/-- A trip record after the trips by those of the interlocks `l` that `p` selects (R107). -/
def Trip.addAll (p : IlId → Bool) (l : List IlId) (tr : Trip) : Trip :=
  l.foldl (fun tr i => if p i then tr.add i else tr) tr

theorem Trip.addAll_none {p : IlId → Bool} {l : List IlId} {tr : Trip} (h : ∀ i, p i = false) : tr.addAll p l = tr := by
  induction l with
  | nil => rfl
  | cons i l ih =>
    rw [Trip.addAll, List.foldl_cons, h i]
    exact ih

theorem Trip.addAll_latch (p : IlId → Bool) (l : List IlId) (tr : Trip) :
    (tr.addAll p l).latch = true ↔ tr.latch = true ∨ ∃ i ∈ l, p i = true := by
  induction l generalizing tr with
  | nil => simp [Trip.addAll]
  | cons i l ih =>
    rw [Trip.addAll, List.foldl_cons]
    refine (ih _).trans ?_
    by_cases h : p i = true
    · simp [h, Trip.add]
    · simp [h]

theorem oneIl_getLsbD (i j : IlId) : (oneIl i).getLsbD j.val = decide (j = i) := by
  revert i j
  decide

theorem Trip.add_cause (tr : Trip) (i j : IlId) :
    (tr.add i).cause.getLsbD j.val = (tr.cause.getLsbD j.val || decide (j = i)) := by
  rw [Trip.add, BitVec.getLsbD_or, oneIl_getLsbD]

theorem Trip.addAll_cause (p : IlId → Bool) (l : List IlId) (tr : Trip) (j : IlId) :
    (tr.addAll p l).cause.getLsbD j.val = (tr.cause.getLsbD j.val || (decide (j ∈ l) && p j)) := by
  induction l generalizing tr with
  | nil => simp [Trip.addAll]
  | cons i l ih =>
    rw [Trip.addAll, List.foldl_cons]
    refine (ih _).trans ?_
    by_cases h : p i = true
    · rw [if_pos h, Trip.add_cause]
      by_cases hj : j = i
      · simp [hj, h]
      · simp [hj]
    · by_cases hj : j = i
      · simp [hj, h]
      · simp [hj, h]

/-- A trip by interlock `i` with an empty queue below HOLD (R38, R107). -/
theorem State.tripMembers_of_empty {s : State} (i : IlId) (he : s.queue.entries = []) (hh : s.queue.hold = false) :
    s.tripMembers i = { s with
      trips := s.trips.mapId fun c tr => if s.member i c then tr.add i else tr
      link := if s.memberMask i ≠ 0 then s.link.offer (.trip i (s.memberMask i) 0) else s.link } := by
  have htrips : (s.tripMembers i).trips = s.trips.mapId fun c tr => if s.member i c then tr.add i else tr :=
    Bank.ext_get fun c => by rw [State.tripMembers_trips, Bank.get_mapId]
  have hqueue : afterRemoval s.queue [] = s.queue := by
    rw [afterRemoval, hh, ← he]
    exact congrArg (fun b => { s.queue with hold := b }) hh.symm
  have hflow : flowOfRemoval s.queue [] s.link = s.link := if_neg fun h => by
    rw [hh] at h
    exact Bool.false_ne_true h.1
  rw [← htrips, State.tripMembers_eq (s.maskOf_memberMask i) (es := []) (by rw [he]; rfl), hqueue, hflow, he]
  by_cases h0 : s.memberMask i = 0
  · rw [if_pos h0, if_pos h0, if_neg (not_not.2 h0)]
  · rw [if_neg h0, if_neg h0, if_pos h0]
    rfl

/-- The interlocks' trips with an empty queue below HOLD, and their notices in order (R116; log 21). -/
theorem State.tripActive_of_empty {s : State} (he : s.queue.entries = []) (hh : s.queue.hold = false) :
    s.tripActive = { s with
      trips := s.trips.mapId fun c tr => tr.addAll (fun i => (s.ils.get i).active && s.member i c) allIls
      link := allIls.foldl (fun l i => if isActive (s.ils.get i) ∧ s.memberMask i ≠ 0 then
        l.offer (.trip i (s.memberMask i) 0) else l) s.link } := by
  suffices h : ∀ (l : List IlId) (T : Bank Trip 16) (L : Link),
      l.foldl (fun s i => if (s.ils.get i).active then s.tripMembers i else s) { s with trips := T, link := L } = { s with
        trips := T.mapId fun c tr => tr.addAll (fun i => (s.ils.get i).active && s.member i c) l
        link := l.foldl (fun l i => if isActive (s.ils.get i) ∧ s.memberMask i ≠ 0 then
          l.offer (.trip i (s.memberMask i) 0) else l) L } from h allIls s.trips s.link
  intro l
  induction l with
  | nil =>
    intro T L
    have : (T.mapId fun c tr => tr.addAll (fun i => (s.ils.get i).active && s.member i c) []) = T :=
      Bank.ext_get fun c => by rw [Bank.get_mapId]; rfl
    rw [this]
    rfl
  | cons i l ih =>
    intro T L
    have hbank : ∀ T' : Bank Trip 16,
        (∀ c, T'.get c = if (s.ils.get i).active && s.member i c then (T.get c).add i else T.get c) →
        (T'.mapId fun c tr => tr.addAll (fun i => (s.ils.get i).active && s.member i c) l)
          = T.mapId fun c tr => tr.addAll (fun i => (s.ils.get i).active && s.member i c) (i :: l) := fun T' h =>
      Bank.ext_get fun c => by
        rw [Bank.get_mapId, Bank.get_mapId, h c]
        rfl
    rw [List.foldl_cons, List.foldl_cons]
    by_cases ha : (s.ils.get i).active = true
    · have hact := (Interlock.active_iff _).1 ha
      have hstep : State.tripMembers i { s with trips := T, link := L } = { s with
          trips := T.mapId fun c tr => if s.member i c then tr.add i else tr
          link := if isActive (s.ils.get i) ∧ s.memberMask i ≠ 0 then
            L.offer (.trip i (s.memberMask i) 0) else L } := by
        rw [State.tripMembers_of_empty (s := { s with trips := T, link := L }) i he hh]
        exact congrArg (fun x : Link => ({ s with
          trips := T.mapId fun c tr => if s.member i c then tr.add i else tr, link := x } : State))
          (if_congr (and_iff_right hact).symm rfl rfl)
      rw [if_pos ha, hstep]
      refine (ih _ _).trans ?_
      rw [hbank _ fun c => by rw [Bank.get_mapId, ha]; rfl]
    · have hact : ¬isActive (s.ils.get i) := mt (Interlock.active_iff _).2 ha
      rw [if_neg ha, if_neg fun h => hact h.1]
      refine (ih _ _).trans ?_
      rw [hbank _ fun c => by simp [ha]]

/-! ### An accepted LAYOUT -/

/-- The end of an accepted LAYOUT: the AUTO test, the setup flags, the compare values and the pins (R172). -/
def State.layEnds (v : State) : State :=
  (State.loadCompare (fun _ => true)
    { v.autoTest with ctl := { v.autoTest.ctl with layoutOk := true, timebaseOk := false } }).settle

theorem State.layOut_layEnds (body : List Byte) (s : State) :
    s.layOut body = (s.layClears body).tripActive.layEnds := State.layOut_eq body s

theorem State.layEnds_eq (v : State) : v.layEnds = { v with
    chans := v.layEnds.chans, trips := v.layEnds.trips, outs := v.layEnds.outs
    ctl := { v.ctl with layoutOk := true, timebaseOk := false } } := rfl

theorem State.layEnds_trip (v : State) (c : ChanId) :
    v.layEnds.trips.get c = if autoEligible v c then { latch := false, cause := 0 } else v.trips.get c :=
  (State.autoTest_chan v c).2

section
variable {body : List Byte} {s : State}

theorem State.layOut_chans (hf : ∀ n, ¬layoutFails body n) : (s.layOut body).chans = (s.layClears body).chans :=
  Bank.ext_get fun c => by
    obtain ⟨l, hl⟩ := chanLayoutAt_isSome hf c
    rw [State.layOut_chan s hl, State.layClears_chan s hl]

theorem State.layOut_ils (hf : ∀ n, ¬layoutFails body n) : (s.layOut body).ils = (s.layClears body).ils :=
  Bank.ext_get fun i => by
    obtain ⟨g, hg⟩ := ilSettingsAt_isSome hf i
    rw [State.layOut_il s hg, State.layClears_il s hg]

theorem State.member_congr {u v : State} (h : u.chans = v.chans) (i : IlId) (c : ChanId) : u.member i c = v.member i c := by
  rw [State.member, State.member, State.used, State.used, h]

theorem State.memberMask_congr {u v : State} (h : u.chans = v.chans) (i : IlId) : u.memberMask i = v.memberMask i := by
  rw [State.memberMask, State.memberMask, funext (State.member_congr h i)]

/-- What an accepted LAYOUT leaves of a part with an empty queue below HOLD (R172). -/
theorem State.layOut_became (hf : ∀ n, ¬layoutFails body n) (he : s.queue.entries = []) (hh : s.queue.hold = false) :
    s.layOut body = { s with
      chans := (s.layOut body).chans, ils := (s.layOut body).ils, trips := (s.layOut body).trips
      outs := (s.layOut body).outs
      senses := s.senses.mapId fun _ x => { x with capture := none, captured := false, overcaptured := false }
      home := { s.home with filter := (byteAt body 44).toNat }
      ctl := { s.ctl with layoutOk := true, timebaseOk := false }
      link := allIls.foldl (fun l i =>
        if isActive ((s.layOut body).ils.get i) ∧ (s.layOut body).memberMask i ≠ 0 then
          l.offer (.trip i ((s.layOut body).memberMask i) 0) else l) s.link } := by
  have htrip := State.tripActive_of_empty (s := s.layClears body) he hh
  have hmask : ∀ i, (s.layClears body).memberMask i = (s.layOut body).memberMask i := fun i =>
    State.memberMask_congr (State.layOut_chans hf).symm i
  simp only [hmask, ← State.layOut_ils hf] at htrip
  have hleft : s.layOut body = { (s.layClears body).tripActive with
      chans := (s.layOut body).chans, trips := (s.layOut body).trips, outs := (s.layOut body).outs
      ctl := { (s.layClears body).tripActive.ctl with layoutOk := true, timebaseOk := false } } := by
    rw [State.layOut_layEnds]
    exact State.layEnds_eq _
  have hclears : s.layClears body = { s with
      chans := (s.layClears body).chans, ils := (s.layClears body).ils, trips := (s.layClears body).trips
      senses := s.senses.mapId fun _ x => { x with capture := none, captured := false, overcaptured := false }
      home := { s.home with filter := (byteAt body 44).toNat } } := rfl
  have hils := State.layOut_ils (s := s) hf
  generalize s.layOut body = u at hleft htrip hils ⊢
  generalize (s.layClears body).tripActive = v at hleft htrip
  generalize s.layClears body = w at htrip hclears hils
  rw [htrip, hclears] at hleft
  rw [hclears] at hils
  rw [← hils] at hleft
  exact hleft

/-- The trips of an accepted LAYOUT before its AUTO test (R116). -/
theorem State.layOut_tripped (hf : ∀ n, ¬layoutFails body n) (he : s.queue.entries = []) (hh : s.queue.hold = false)
    (c : ChanId) : (s.layClears body).tripActive.trips.get c =
      (if (s.layOut body).used c then s.trips.get c else .reset).addAll
        (fun i => ((s.layOut body).ils.get i).active && (s.layOut body).member i c) allIls := by
  have hmem : ∀ i, (s.layOut body).member i c = (s.layClears body).member i c := fun i =>
    State.member_congr (State.layOut_chans hf) i c
  have hused : (s.layOut body).used c = (s.layClears body).used c := State.used_congr (by rw [State.layOut_chans hf])
  have hdrop : (s.layClears body).trips.get c = if (s.layClears body).used c then s.trips.get c else .reset := by
    show (State.dropUnusedTrips _).trips.get c = _
    rw [State.dropUnusedTrips, Bank.get_mapId]
    rfl
  rw [State.tripActive_of_empty (s := s.layClears body) he hh]
  simp only [Bank.get_mapId, hdrop, hmem, hused, State.layOut_ils hf]

/-- The AUTO test of an accepted LAYOUT reads the new layout (R113, R172). -/
theorem State.layOut_autoTest (hf : ∀ n, ¬layoutFails body n) (c : ChanId) :
    (autoEligible (s.layClears body).tripActive c → (s.layOut body).trips.get c = { latch := false, cause := 0 })
    ∧ (¬autoEligible (s.layClears body).tripActive c →
      (s.layOut body).trips.get c = (s.layClears body).tripActive.trips.get c)
    ∧ (s.layClears body).tripActive.chans = (s.layOut body).chans
    ∧ (s.layClears body).tripActive.ils = (s.layOut body).ils := by
  have htrip := State.layEnds_trip (s.layClears body).tripActive c
  rw [← State.layOut_layEnds] at htrip
  exact ⟨fun h => htrip.trans (if_pos h), fun h => htrip.trans (if_neg h),
    by rw [State.tripActive_chans, State.layOut_chans hf], by rw [State.tripActive_ils, State.layOut_ils hf]⟩

/-- The trips of an accepted LAYOUT: UNUSED channels, members of ACTIVE interlocks, and the others (R116). -/
theorem State.layOut_trips (hf : ∀ n, ¬layoutFails body n) (he : s.queue.entries = []) (hh : s.queue.hold = false)
    {u r : State} (hu : s.layOut body = u) (hr : r = { u with trips := s.trips }) (c : ChanId) :
    ((u.chans.get c).mode = .unused → u.trips.get c = { latch := false, cause := 0 })
    ∧ ((∃ i : IlId, isMember u i c ∧ isActive (u.ils.get i)) → (u.trips.get c).latch = true
      ∧ ∀ i : IlId, (u.trips.get c).cause.getLsbD i.val =
        ((s.trips.get c).cause.getLsbD i.val || decide (isMember u i c ∧ isActive (u.ils.get i))))
    ∧ ((u.chans.get c).mode ≠ .unused → ¬(∃ i : IlId, isMember u i c ∧ isActive (u.ils.get i)) →
      u.trips.get c = if autoEligible r c then { latch := false, cause := 0 } else s.trips.get c) := by
  obtain ⟨hauto, hkept, hchans, hils⟩ := State.layOut_autoTest (s := s) hf c
  have htripped := State.layOut_tripped hf he hh c
  rw [hu] at hauto hkept hchans hils htripped
  generalize (s.layClears body).tripActive = v at hauto hkept hchans hils htripped
  have hsel : ∀ i, ((u.ils.get i).active && u.member i c) = true ↔ isMember u i c ∧ isActive (u.ils.get i) := fun i => by
    rw [Bool.and_eq_true, Interlock.active_iff, State.member_iff, and_comm]
  refine ⟨fun hmode => ?_, fun hex => ?_, fun hmode hnone => ?_⟩
  · have hunused : u.used c = false := by rw [← Bool.not_eq_true, State.used_iff]; exact not_not.2 hmode
    have hnone : ∀ i, ((u.ils.get i).active && u.member i c) = false := fun i => by
      rw [State.not_member_of_unused hunused, Bool.and_false]
    rw [hunused, Trip.addAll_none hnone] at htripped
    by_cases hel : autoEligible v c
    · exact hauto hel
    · exact (hkept hel).trans htripped
  · obtain ⟨i, hmem, hact⟩ := id hex
    have hno : ¬autoEligible v c := not_autoEligible_of_active (i := i) (by rwa [isMember, hchans]) (by rwa [hils])
    rw [hkept hno, htripped, if_pos ((u.used_iff c).2 hmem.1)]
    refine ⟨(Trip.addAll_latch _ _ _).2 (Or.inr ⟨i, mem_allIls i, (hsel i).2 ⟨hmem, hact⟩⟩), fun j => ?_⟩
    rw [Trip.addAll_cause, decide_eq_true (mem_allIls j), Bool.true_and]
    exact congrArg _ (Bool.eq_iff_iff.2 ((hsel j).trans (decide_eq_true_iff).symm))
  · have hnone' : ∀ i, ((u.ils.get i).active && u.member i c) = false := fun i => by
      rw [← Bool.not_eq_true, hsel]
      exact fun h => hnone ⟨i, h⟩
    rw [if_pos ((u.used_iff c).2 hmode), Trip.addAll_none hnone'] at htripped
    have hel : autoEligible v c ↔ autoEligible r c :=
      autoEligible_congr (by rw [hchans, hr]) (by rw [hchans, hr]) (by rw [htripped, hr]) (by rw [hils, hr])
    by_cases h : autoEligible r c
    · rw [if_pos h, hauto (hel.2 h)]
    · rw [if_neg h, hkept (mt hel.1 h), htripped]

/-- The outputs of a channel at level 0 as a LAYOUT ends (R74, R89). -/
theorem State.layEnds_shows {v : State} {c : ChanId} (hl : (v.chans.get c).act.level = 0) :
    Shows v.layEnds c { v.outs.get c with compare := 0, side := .none } (v.layEnds.outs.get c) := by
  have h := State.settle_shows (State.loadCompare (fun _ => true)
    { v.autoTest with ctl := { v.autoTest.ctl with layoutOk := true, timebaseOk := false } }) c
  have hlevel : (v.autoTest.chans.get c).act.level = 0 := by
    rw [(State.autoTest_chan v c).1]
    split
    · rfl
    · exact hl
  have hload : (State.loadCompare (fun _ => true)
      { v.autoTest with ctl := { v.autoTest.ctl with layoutOk := true, timebaseOk := false } }).outs.get c
      = { v.outs.get c with compare := 0, side := .none } := by
    simp only [State.loadCompare, Bank.get_mapId, if_true, Out.load_eq, hlevel, Out.loaded_zero, State.autoTest_outs,
      State.rearmedOut]
    split <;> rfl
  rwa [hload] at h

/-- The pins of a part in SETUP whose channels are OFF with compare value 0 (R89). -/
theorem Shows.setup_pins {u : State} {c : ChanId} {o p : Out} (h : Shows u c o p) (hm : u.ctl.mode = .setup)
    (hoff : (u.chans.get c).act.drive = .off) : p.pinA ≠ .active
      ∧ ((u.trips.get c).latch = false → p.pinA = .inactive ∧ p.pinB = .inactive) := by
  have hne : u.ctl.mode ≠ .starting := by rw [hm]; exact OpMode.noConfusion
  have hquiet : (u.trips.get c).latch = false → p.pinA = .inactive ∧ p.pinB = .inactive := fun hl =>
    h.inactive_of_quiet hne (State.driveState_of_stopped (Or.inl hm) hl hoff)
  refine ⟨?_, hquiet⟩
  by_cases hused : (u.chans.get c).mode = .unused
  · have hd : u.driveState c = .unused := State.driveState_of_unused (by simpa [hused] using u.used_iff c)
    rw [(h.inactive_of_quiet hne (Or.inl hd)).1]
    exact PinDrive.noConfusion
  · cases hl : (u.trips.get c).latch with
    | false =>
      rw [(hquiet hl).1]
      exact PinDrive.noConfusion
    | true => exact (h.safePattern (State.driveState_of_latched (Or.inl hm) hused hl)).1

/-- What every channel shows after an accepted LAYOUT (R89, R172). -/
theorem State.layOut_shows (hf : ∀ n, ¬layoutFails body n) (hm : s.ctl.mode = .setup) (c : ChanId) :
    Shows (s.layOut body) c { s.outs.get c with compare := 0, side := .none } ((s.layOut body).outs.get c)
    ∧ ((s.layOut body).outs.get c).pinA ≠ .active
    ∧ (((s.layOut body).trips.get c).latch = false →
      ((s.layOut body).outs.get c).pinA = .inactive ∧ ((s.layOut body).outs.get c).pinB = .inactive) := by
  obtain ⟨l, hl⟩ := chanLayoutAt_isSome hf c
  have hchan := State.layOut_chan s hl
  obtain ⟨-, -, hchans, -⟩ := State.layOut_autoTest (s := s) hf c
  have houts : (s.layClears body).tripActive.outs = s.outs :=
    State.tripActive_induction (P := fun t => t.outs = s.outs) _ rfl fun i t ht => by rw [State.tripMembers_outs, ht]
  have hshow := State.layEnds_shows (v := (s.layClears body).tripActive) (c := c)
    (by rw [hchans, hchan, Channel.layOut_eq]; rfl)
  rw [← State.layOut_layEnds, houts] at hshow
  have hmode : (s.layOut body).ctl.mode = .setup := by
    rw [State.layOut_layEnds, State.layEnds_eq]
    show (s.layClears body).tripActive.ctl.mode = .setup
    rw [State.tripActive_ctl]
    exact hm
  exact ⟨hshow, hshow.setup_pins hmode (by rw [hchan, Channel.layOut_eq]; rfl)⟩

end

end Sys2Proof.Machine
end

section
/-! SUPPORT. The LAYOUT statement, assembled. -/

namespace Sys2Proof.Machine

theorem Polarity.eq_of_ofIlCode {b : Byte} {p : Polarity} (h : Polarity.ofIlCode b.toNat = some p) :
    p = if b = 1 then .activeHigh else .activeLow := by
  revert b
  cases p <;> decide +kernel

theorem Rearm.eq_of_ofCode {b : Byte} {r : Rearm} (h : Rearm.ofCode b.toNat = some r) :
    r = if b = 1 then .auto else .manual := by
  revert b
  cases r <;> decide +kernel

/-- A channel after a LAYOUT, by the bytes of its record (R46, R198). -/
theorem State.layOut_chan_bytes {body : List Byte} (s : State) (hf : ∀ n, ¬layoutFails body n) (c : ChanId) (b : Byte)
    (hb : b = byteAt body (2 * c.val)) : ∃ m, ChanMode.code m = (b.extractLsb' 0 2).toNat
      ∧ (s.layOut body).chans.get c = { s.chans.get c with
          mode := m, member := b.extractLsb' 2 4
          deadTime := 4 * (byteAt body (2 * c.val + 1)).toNat
          role := if b.extractLsb' 6 2 = 0 then .none else if b.extractLsb' 6 2 = 1 then .capture else .endStop
          act := freshSet m (s.chans.get c).cfg, clamped := false } := by
  obtain ⟨l, hl⟩ := chanLayoutAt_isSome hf c
  obtain ⟨hmode, hdead, hmember, hrole⟩ := chanLayoutAt_eq_some hl
  rw [← hb] at hmode hmember hrole
  refine ⟨l.mode, by rw [hmode, ChanMode.code_ofCode], ?_⟩
  rw [State.layOut_chan s hl, Channel.layOut_eq, hdead, hmember, ← (SenseRole.eq_of_ofCode hrole).1]

/-- An interlock after a LAYOUT, by the bytes of its record (R104, R198). -/
theorem State.layOut_il_bytes {body : List Byte} (s : State) (hf : ∀ n, ¬layoutFails body n) (i : IlId) :
    (s.layOut body).ils.get i = { s.ils.get i with
      polarity := if byteAt body (32 + 3 * i.val) = 1 then .activeHigh else .activeLow
      filter := (byteAt body (32 + 3 * i.val + 1)).toNat
      rearm := if byteAt body (32 + 3 * i.val + 2) = 1 then .auto else .manual } := by
  obtain ⟨g, hg⟩ := ilSettingsAt_isSome hf i
  obtain ⟨hp, hfilter, hr⟩ := ilSettingsAt_eq_some hg
  rw [State.layOut_il s hg, Interlock.configure, hfilter, Polarity.eq_of_ofIlCode hp, Rearm.eq_of_ofCode hr]

/-- Settles O34: the first fault by `layoutFault_least`, the accepted layout by the `State.layOut_` lemmas. -/
theorem layoutIsTakenWhole : Obligations.LayoutIsTakenWhole := by
  intro tag body s hr hm hl hlen
  obtain ⟨t, he, ht⟩ := exec_layout (tag := tag) hr hm hl hlen
  refine ⟨fun n hn hfirst => ⟨t, he, ht.of_answer (State.takeLayout_of_some (layoutFault_eq_some hn hfirst))⟩,
    fun hf hempty hhold => ⟨t, _, he, rfl, ?_⟩⟩
  have hta := ht.of_answer (State.takeLayout_of_none (layoutFault_eq_none hf))
  have hchan := State.layOut_chan_bytes s hf
  have hil := State.layOut_il_bytes s hf
  have htrips := fun c => State.layOut_trips hf hempty hhold rfl rfl c
  have hshow := State.layOut_shows hf hm
  have hbecame := State.layOut_became hf hempty hhold
  generalize s.layOut body = u at hta hchan hil htrips hshow hbecame
  have hlink := hta.linkFree
  have hchans : t.chans = u.chans := by rw [hlink]
  have hils : t.ils = u.ils := by rw [hlink]
  have htr : t.trips = u.trips := by rw [hlink]
  have houts : t.outs = u.outs := by rw [hlink]
  simp only [isMember, autoEligible, eligible, hchans, hils, htr, houts] at htrips ⊢
  refine ⟨hchan, hil, htrips, fun c => Shows.linkFree hlink (hshow c).1, fun c => ?_, halfBytes u.tripMask, _, ?_,
    ⟨u.tripMask, fun c => ?_, rfl⟩, u.memberMask, fun i c => ?_, rfl⟩
  · obtain ⟨hs, hA, hoff⟩ := hshow c
    exact ⟨hs.kept.1, hA, hoff⟩
  · rw [← hbecame]
    exact hta
  · rw [State.tripMask, chanMask_getLsbD]
    exact Iff.rfl
  · rw [isMember, hchans]
    exact u.maskOf_memberMask i c

end Sys2Proof.Machine
end
